-- ==== Sys2Proof/Word.lean ====
section
/-! DEFINITION. The word types of the machine (10_state.md R30, R60 to R63) and the join of words,
most significant first (20_memory.md R105). -/

namespace Sys2Proof

/-- A 16-bit word: a register, a memory word, a logical address (10_state.md R30, 20_memory.md R100). -/
abbrev Word := BitVec 16

/-- A byte, half of a word (20_memory.md R106). -/
abbrev Byte := BitVec 8

/-- A double word: a 32-bit integer or floating point number (10_state.md R61, R62). -/
abbrev Long := BitVec 32

/-- An extended precision floating point number (10_state.md R63). -/
abbrev Ext := BitVec 48

/-- The number of a general register, counted modulo 16 (10_state.md R30, R32). -/
abbrev Reg := BitVec 4

/-- Two words as a double word, `hi` the most significant half (00_scope.md R9). -/
def Long.ofWords (hi lo : Word) : Long := hi ++ lo

/-- The most significant half of a double word. -/
def Long.hi (v : Long) : Word := v.extractLsb' 16 16

/-- The least significant half of a double word. -/
def Long.lo (v : Long) : Word := v.extractLsb' 0 16

/-- Three words as a 48-bit quantity, `w0` the most significant (00_scope.md R9). -/
def Ext.ofWords (w0 w1 w2 : Word) : Ext := (w0 ++ w1 ++ w2 : BitVec (16 + 16 + 16))

/-- Word `0` of a 48-bit quantity. -/
def Ext.w0 (v : Ext) : Word := v.extractLsb' 32 16

/-- Word `1` of a 48-bit quantity. -/
def Ext.w1 (v : Ext) : Word := v.extractLsb' 16 16

/-- Word `2` of a 48-bit quantity. -/
def Ext.w2 (v : Ext) : Word := v.extractLsb' 0 16

/-- The upper byte of a word, the standard's bits 0 to 7 (20_memory.md R106). -/
def Word.upper (w : Word) : Byte := w.extractLsb' 8 8

/-- The lower byte of a word, the standard's bits 8 to 15 (20_memory.md R106). -/
def Word.lower (w : Word) : Byte := w.extractLsb' 0 8

end Sys2Proof
end

