-- ==== Sys2Proof/Machine/Flags.lean ====
section
/-! DEFINITION. Every condition status and overflow computation of the spec, for any width. A CS value is the four
bits C P Z N, C the most significant (10_state.md R40). -/

namespace Sys2Proof.Machine

/-- `pzn_N(v)`: 0010, 0001 or 0100, the carry bit 0 (10_state.md R41). -/
def pzn {w : Nat} (v : BitVec w) : BitVec 4 :=
  if v = 0#w then 0b0010#4 else if v.msb then 0b0001#4 else 0b0100#4

/-- `cpzn_N(c, v)`: as `pzn` with the carry bit `c` (10_state.md R42). -/
def cpzn {w : Nat} (c : Bool) (v : BitVec w) : BitVec 4 := pzn v ||| (if c then 0b1000#4 else 0b0000#4)

/-- What an addition or subtraction yields: result, carry, overflow (46_int_addsub.md R530). -/
structure Sum (w : Nat) where
  value : BitVec w
  carry : Bool
  overflow : Bool
deriving DecidableEq, Repr

/-- `add_W` (46_int_addsub.md R530). -/
def addFlags {w : Nat} (a b : BitVec w) : Sum w where
  value := a + b
  carry := decide (2 ^ w ≤ a.toNat + b.toNat)
  overflow := a.msb == b.msb && (a + b).msb != a.msb

/-- `sub_W`: `a + NOT b + 1` (46_int_addsub.md R531). -/
def subFlags {w : Nat} (a b : BitVec w) : Sum w where
  value := a + ~~~b + 1#w
  carry := decide (2 ^ w ≤ a.toNat + (~~~b).toNat + 1)
  overflow := a.msb != b.msb && (a + ~~~b + 1#w).msb == b.msb

/-- The CS of a signed comparison (49_logic_compare_misc.md R762, R774). -/
def compareCs (a b : Int) : BitVec 4 :=
  if a = b then 0b0010#4 else if a < b then 0b0001#4 else 0b0100#4

/-- The CS of a compare between limits (49_logic_compare_misc.md R772). -/
def limitsCs (a lo hi : Int) : BitVec 4 :=
  if hi < lo then 0b1000#4 else if a < lo then 0b0001#4 else if hi < a then 0b0100#4 else 0b0010#4

/-- The CS of a bit test: `b` is bit `n` of the operand (41_bit.md R330). -/
def testBitCs (n : BitVec 4) (b : Bool) : BitVec 4 :=
  if b then (if n = 0#4 then 0b0001#4 else 0b0100#4) else 0b0010#4

/-- An integer is not representable in `w` bits (47_int_muldiv.md R590, R606). -/
def outOfRange (w : Nat) (p : Int) : Bool := decide (p < -2 ^ (w - 1) ∨ 2 ^ (w - 1) - 1 < p)

/-! ### Shifts (42_shift.md R350) -/

/-- `rol_W`: bits leaving the top re-enter at the bottom. -/
def rol {w : Nat} (v : BitVec w) (n : Nat) : BitVec w := (v <<< (n % w)) ||| (v >>> ((w - n % w) % w))

/-- `ror_W`. -/
def ror {w : Nat} (v : BitVec w) (n : Nat) : BitVec w := rol v ((w - n % w) % w)

/-- The sign bit changes at some step of a left shift by `c`: the `c + 1` most significant bits are not all equal;
for `c = W`, the value is not 0 (42_shift.md R362, R365). -/
def signLost {w : Nat} (v : BitVec w) (c : Nat) : Bool :=
  if c < w then v.sshiftRight (w - 1 - c) != 0#w && v.sshiftRight (w - 1 - c) != BitVec.allOnes w
  else v != 0#w

end Sys2Proof.Machine
end

