-- ==== Sys2Proof/Config.lean ====
section
/-! DEFINITION. The implementation parameters of 00_scope.md R5, plain data that State carries, and the
free values: opaque constants for what the spec leaves open (93_implementation_defined.md `any value`). -/

namespace Sys2Proof

/-- How many page register groups an expanded memory has (20_memory.md R122). -/
inductive GroupCount where
  | two
  | four
  | eight
  | sixteen
deriving DecidableEq, Repr

/-- `N_GROUPS` as a number. -/
def GroupCount.toNat : GroupCount → Nat
  | .two => 2
  | .four => 4
  | .eight => 8
  | .sixteen => 16

/-- The expanded memory option: `N_GROUPS` and `HAS_LOCK`, which is meaningful only with it (R5). -/
structure MmuConfig where
  groups : GroupCount
  hasLock : Bool
deriving DecidableEq, Repr

/-- `FP`: the numeric functions of floating point add, subtract, multiply and divide, the algorithms of 48_float.md or
the implementation's own (00_scope.md R5, 93_implementation_defined.md U7). -/
inductive FloatModel where
  | registerTransfer
  | implementation
deriving DecidableEq, Repr

/-- The implementation parameters of 00_scope.md R5. `mmu = none` is `HAS_MMU` false; `surom = some n` is
`HAS_SUROM` with `SUROM_SIZE` = n + 1 words; `physRanges` lists the implemented physical addresses as
(first, count); `spareXio` the spare commands the implementation defines; `builtins` the built-in functions it
defines, each with its number of extra words. What these do is `Config.userState` and its companions. -/
structure Config where
  mmu : Option MmuConfig
  hasMfsr : Bool
  hasParity : Bool
  hasMprot : Bool
  surom : Option (Fin 65536)
  hasTimers : Bool
  hasIoic : Bool
  hasDma : Bool
  hasConsole : Bool
  hasDiscretes : Bool
  hasNpu : Bool
  hasGo : Bool
  hasPio : Bool
  physRanges : List (Nat × Nat)
  spareXio : List Word
  builtins : List (BitVec 8 × Nat)
  /-- `FT_ILLEGAL_INSTR_BIT`. -/
  ftIllegalInstr : BitVec 4
  /-- `FP`. -/
  fp : FloatModel
  /-- `SPI_LATENCY`. -/
  spiLatency : Nat
  intTimerA : BitVec 4
  intTimerB : BitVec 4
  intIo1 : BitVec 4
  intIo2 : BitVec 4
  goTimeout : Nat
  consoleConnected : Bool
deriving DecidableEq, Repr

/-- The free word of draw number `n`: any value (00_scope.md R9 `draw_N`). DESIGN CHOICE, entry 6. -/
opaque Config.freeWord : Nat → BitVec 16

/-- The free choice of draw number `n`: either value (00_scope.md R9 `draw_N`). DESIGN CHOICE, entry 6. -/
opaque Config.freeBit : Nat → Bool

/-- The priority of an I/O channel, higher first: any (10_state.md R53, 60_exceptions.md R846: "not in the standard").
DESIGN CHOICE, entry 42. -/
opaque Config.channelRank : BitVec 7 → Nat

end Sys2Proof
end

