-- ==== Sys2Proof/Machine/Defaults.lean ====
section
/-! DEFINITION. The configuration State.reset carries. -/

namespace Sys2Proof.Machine

/-- The configuration at reset: the one the vectors of 95_test_vectors.md assume, "the minimal configuration ... plus
timers and discretes": no expanded memory, every word of the physical space implemented. DESIGN CHOICE, entry 2. -/
def defaultConfig : Config where
  mmu := none
  hasMfsr := false
  hasParity := false
  hasMprot := false
  surom := none
  hasTimers := true
  hasIoic := false
  hasDma := false
  hasConsole := false
  hasDiscretes := true
  hasNpu := false
  hasGo := false
  hasPio := false
  physRanges := [(0, 1048576)]
  spareXio := []
  builtins := []
  ftIllegalInstr := 9
  fp := .registerTransfer
  spiLatency := 1
  intTimerA := 7
  intTimerB := 9
  intIo1 := 11
  intIo2 := 13
  goTimeout := 0
  consoleConnected := false

/-- The value of a general register at reset. DESIGN CHOICE, unsafe, entry 1. -/
def resetRegister : Word := 0

/-- The page register with group and page `i` at reset: the identity map (10_state.md R54, 70_reset_and_hazards.md
R871) for group 0; for the other groups a DESIGN CHOICE, unsafe, entry 7. -/
def resetPage (i : Nat) : Word := BitVec.ofNat 16 (i % 16)

end Sys2Proof.Machine
end

