-- ==== Sys2Proof/Machine/Mem.lean ====
section
/-! DEFINITION. Physical memory as a canonical list of byte cells (20_memory.md R100, R105, R106). The word at physical
address `pa` is the cells `2 * pa` (upper byte) and `2 * pa + 1` (lower byte); DESIGN CHOICE, entry 4. -/

namespace Sys2Proof.Machine

/-- Memory: (cell, byte) pairs, cells strictly rising, no entry equal to `Memory.fill`. -/
abbrev Memory := List Host.Cell

/-- What a byte that nothing has written reads as. DESIGN CHOICE, unsafe, entry 3. -/
def Memory.fill : Byte := 0#8

/-- The byte at a cell. -/
def Memory.get : Memory → Nat → Byte
  | [], _ => Memory.fill
  | (k, b) :: rest, a => if k = a then b else Memory.get rest a

/-- Memory with the byte at a cell replaced, the canonical form kept. -/
def Memory.put : Memory → Nat → Byte → Memory
  | [], a, b => if b = Memory.fill then [] else [(a, b)]
  | (k, c) :: rest, a, b =>
    if a < k then (if b = Memory.fill then (k, c) :: rest else (a, b) :: (k, c) :: rest)
    else if a = k then (if b = Memory.fill then rest else (a, b) :: rest)
    else (k, c) :: Memory.put rest a b

/-- Every cell is above `lo`, rising, and holds something other than the fill. -/
def Memory.wfAbove : Nat → Memory → Bool
  | _, [] => true
  | lo, (k, b) :: rest => decide (lo ≤ k) && decide (b ≠ Memory.fill) && Memory.wfAbove (k + 1) rest

/-- The canonical form: cells strictly rising, no entry equal to what an unlisted cell reads as. -/
def Memory.wf (m : Memory) : Bool := Memory.wfAbove 0 m

/-- Every listed cell lies below `n`. -/
def Memory.below (n : Nat) (m : Memory) : Bool := m.all fun c => decide (c.1 < n)

/-- The word at a physical address (R105, R106). -/
def Memory.readWord (m : Memory) (pa : Nat) : Word := Memory.get m (2 * pa) ++ Memory.get m (2 * pa + 1)

/-- Memory with the word at a physical address replaced. -/
def Memory.writeWord (m : Memory) (pa : Nat) (w : Word) : Memory :=
  Memory.put (Memory.put m (2 * pa) (Word.upper w)) (2 * pa + 1) (Word.lower w)

end Sys2Proof.Machine
end

