-- ==== Sys2Proof/Syntax.lean ====
section
/-! DEFINITION. The instructions: one constructor for each row of spec/opcode_table.json (30_encoding.md R190 to
R192). Operands are written as the assembler writes them (R200): a base register is its register number 12 to
15, a count or short immediate of 1 to 16 is that number; Decode.lean maps them to the encoded fields. -/

namespace Sys2Proof

/-- An instruction. Each docstring names the mnemonic, the operand layout and the rule that defines it. -/
inductive Instr where
  /-- XIO: LONG (40_io.md R230). -/
  | xio (ra : Reg) (rx : Reg) (addr : Word)
  /-- VIO: LONG (40_io.md R300). -/
  | vio (ra : Reg) (rx : Reg) (addr : Word)
  /-- SBR: RR, a bit number 0 to 15 and a register (41_bit.md R321). -/
  | sbr (n : BitVec 4) (rb : Reg)
  /-- SB: LONG, the raw field n 0 to 15 (41_bit.md R322). -/
  | sb (n : BitVec 4) (rx : Reg) (addr : Word)
  /-- SBI: LONG, the raw field n 0 to 15 (41_bit.md R323). -/
  | sbi (n : BitVec 4) (rx : Reg) (addr : Word)
  /-- RBR: RR, a bit number 0 to 15 and a register (41_bit.md R326). -/
  | rbr (n : BitVec 4) (rb : Reg)
  /-- RB: LONG, the raw field n 0 to 15 (41_bit.md R327). -/
  | rb (n : BitVec 4) (rx : Reg) (addr : Word)
  /-- RBI: LONG, the raw field n 0 to 15 (41_bit.md R328). -/
  | rbi (n : BitVec 4) (rx : Reg) (addr : Word)
  /-- TBR: RR, a bit number 0 to 15 and a register (41_bit.md R331). -/
  | tbr (n : BitVec 4) (rb : Reg)
  /-- TB: LONG, the raw field n 0 to 15 (41_bit.md R332). -/
  | tb (n : BitVec 4) (rx : Reg) (addr : Word)
  /-- TBI: LONG, the raw field n 0 to 15 (41_bit.md R333). -/
  | tbi (n : BitVec 4) (rx : Reg) (addr : Word)
  /-- TSB: LONG, the raw field n 0 to 15 (41_bit.md R335). -/
  | tsb (n : BitVec 4) (rx : Reg) (addr : Word)
  /-- SVBR: RR, two registers (41_bit.md R337). -/
  | svbr (ra : Reg) (rb : Reg)
  /-- RVBR: RR, two registers (41_bit.md R338). -/
  | rvbr (ra : Reg) (rb : Reg)
  /-- TVBR: RR, two registers (41_bit.md R339). -/
  | tvbr (ra : Reg) (rb : Reg)
  /-- SLL: RR, a count 1 to 16 (the field holds n - 1) and a register (42_shift.md R352). -/
  | sll (n : Nat) (rb : Reg)
  /-- SRL: RR, a count 1 to 16 (the field holds n - 1) and a register (42_shift.md R353). -/
  | srl (n : Nat) (rb : Reg)
  /-- SRA: RR, a count 1 to 16 (the field holds n - 1) and a register (42_shift.md R354). -/
  | sra (n : Nat) (rb : Reg)
  /-- SLC: RR, a count 1 to 16 (the field holds n - 1) and a register (42_shift.md R355). -/
  | slc (n : Nat) (rb : Reg)
  /-- DSLL: RR, a count 1 to 16 (the field holds n - 1) and a register (42_shift.md R356). -/
  | dsll (n : Nat) (rb : Reg)
  /-- DSRL: RR, a count 1 to 16 (the field holds n - 1) and a register (42_shift.md R357). -/
  | dsrl (n : Nat) (rb : Reg)
  /-- DSRA: RR, a count 1 to 16 (the field holds n - 1) and a register (42_shift.md R358). -/
  | dsra (n : Nat) (rb : Reg)
  /-- DSLC: RR, a count 1 to 16 (the field holds n - 1) and a register (42_shift.md R359). -/
  | dslc (n : Nat) (rb : Reg)
  /-- SLR: RR, two registers (42_shift.md R361). -/
  | slr (ra : Reg) (rb : Reg)
  /-- SAR: RR, two registers (42_shift.md R362). -/
  | sar (ra : Reg) (rb : Reg)
  /-- SCR: RR, two registers (42_shift.md R363). -/
  | scr (ra : Reg) (rb : Reg)
  /-- DSLR: RR, two registers (42_shift.md R364). -/
  | dslr (ra : Reg) (rb : Reg)
  /-- DSAR: RR, two registers (42_shift.md R365). -/
  | dsar (ra : Reg) (rb : Reg)
  /-- DSCR: RR, two registers (42_shift.md R366). -/
  | dscr (ra : Reg) (rb : Reg)
  /-- JC: LONG, a condition mask C P Z N (43_jump_branch.md R392). -/
  | jc (c : BitVec 4) (rx : Reg) (addr : Word)
  /-- JCI: LONG, a condition mask C P Z N (43_jump_branch.md R393). -/
  | jci (c : BitVec 4) (rx : Reg) (addr : Word)
  /-- JS: LONG (43_jump_branch.md R394). -/
  | js (ra : Reg) (rx : Reg) (addr : Word)
  /-- SOJ: LONG (43_jump_branch.md R395). -/
  | soj (ra : Reg) (rx : Reg) (addr : Word)
  /-- BR: ICR, a signed displacement (43_jump_branch.md R397). -/
  | br (d : BitVec 8)
  /-- BEZ: ICR, a signed displacement (43_jump_branch.md R398). -/
  | bez (d : BitVec 8)
  /-- BLT: ICR, a signed displacement (43_jump_branch.md R399). -/
  | blt (d : BitVec 8)
  /-- BLE: ICR, a signed displacement (43_jump_branch.md R401). -/
  | ble (d : BitVec 8)
  /-- BGT: ICR, a signed displacement (43_jump_branch.md R402). -/
  | bgt (d : BitVec 8)
  /-- BNZ: ICR, a signed displacement (43_jump_branch.md R403). -/
  | bnz (d : BitVec 8)
  /-- BGE: ICR, a signed displacement (43_jump_branch.md R404). -/
  | bge (d : BitVec 8)
  /-- LST: LONG, first field 0 (43_jump_branch.md R405). -/
  | lst (rx : Reg) (addr : Word)
  /-- LSTI: LONG, first field 0 (43_jump_branch.md R406). -/
  | lsti (rx : Reg) (addr : Word)
  /-- BEX: RR, first field 0, entry 0 to 15 (43_jump_branch.md R408). -/
  | bex (n : BitVec 4)
  /-- SJS: LONG (43_jump_branch.md R410). -/
  | sjs (ra : Reg) (rx : Reg) (addr : Word)
  /-- URS: RR, second field 0 (43_jump_branch.md R411). -/
  | urs (ra : Reg)
  /-- L: LONG (44_load.md R431). -/
  | l (ra : Reg) (rx : Reg) (addr : Word)
  /-- LR: RR, two registers (44_load.md R432). -/
  | lr (ra : Reg) (rb : Reg)
  /-- LB: B, base register 12 to 15 (44_load.md R433). -/
  | lb (br : Reg) (dspl : BitVec 8)
  /-- LBX: BX, base register 12 to 15, opcode bytes 40 to 43 (44_load.md R434). -/
  | lbx (br : Reg) (rx : Reg)
  /-- LISP: RR, a register and an operand 1 to 16 (the field holds n - 1) (44_load.md R435). -/
  | lisp (ra : Reg) (n : Nat)
  /-- LISN: RR, a register and an operand 1 to 16 (the field holds n - 1) (44_load.md R436). -/
  | lisn (ra : Reg) (n : Nat)
  /-- LI: LONG (44_load.md R437). -/
  | li (ra : Reg) (rx : Reg) (addr : Word)
  /-- LIM: LONG (44_load.md R438). -/
  | lim (ra : Reg) (rx : Reg) (addr : Word)
  /-- DL: LONG (44_load.md R441). -/
  | dl (ra : Reg) (rx : Reg) (addr : Word)
  /-- DLR: RR, two registers (44_load.md R442). -/
  | dlr (ra : Reg) (rb : Reg)
  /-- DLB: B, base register 12 to 15 (44_load.md R443). -/
  | dlb (br : Reg) (dspl : BitVec 8)
  /-- DLBX: BX, base register 12 to 15, opcode bytes 40 to 43 (44_load.md R444). -/
  | dlbx (br : Reg) (rx : Reg)
  /-- DLI: LONG (44_load.md R445). -/
  | dli (ra : Reg) (rx : Reg) (addr : Word)
  /-- LM: LONG, the raw field n 0 to 15 (44_load.md R446). -/
  | lm (n : BitVec 4) (rx : Reg) (addr : Word)
  /-- EFL: LONG (44_load.md R448). -/
  | efl (ra : Reg) (rx : Reg) (addr : Word)
  /-- LUB: LONG (44_load.md R451). -/
  | lub (ra : Reg) (rx : Reg) (addr : Word)
  /-- LLB: LONG (44_load.md R452). -/
  | llb (ra : Reg) (rx : Reg) (addr : Word)
  /-- LUBI: LONG (44_load.md R453). -/
  | lubi (ra : Reg) (rx : Reg) (addr : Word)
  /-- LLBI: LONG (44_load.md R454). -/
  | llbi (ra : Reg) (rx : Reg) (addr : Word)
  /-- POPM: RR, two registers (44_load.md R455). -/
  | popm (ra : Reg) (rb : Reg)
  /-- ST: LONG (45_store.md R481). -/
  | st (ra : Reg) (rx : Reg) (addr : Word)
  /-- STB: B, base register 12 to 15 (45_store.md R482). -/
  | stb (br : Reg) (dspl : BitVec 8)
  /-- STBX: BX, base register 12 to 15, opcode bytes 40 to 43 (45_store.md R483). -/
  | stbx (br : Reg) (rx : Reg)
  /-- STI: LONG (45_store.md R484). -/
  | sti (ra : Reg) (rx : Reg) (addr : Word)
  /-- STC: LONG, the raw field n 0 to 15 (45_store.md R485). -/
  | stc (n : BitVec 4) (rx : Reg) (addr : Word)
  /-- STCI: LONG, the raw field n 0 to 15 (45_store.md R486). -/
  | stci (n : BitVec 4) (rx : Reg) (addr : Word)
  /-- DST: LONG (45_store.md R488). -/
  | dst (ra : Reg) (rx : Reg) (addr : Word)
  /-- DSTB: B, base register 12 to 15 (45_store.md R489). -/
  | dstb (br : Reg) (dspl : BitVec 8)
  /-- DSTX: BX, base register 12 to 15, opcode bytes 40 to 43 (45_store.md R490). -/
  | dstx (br : Reg) (rx : Reg)
  /-- DSTI: LONG (45_store.md R491). -/
  | dsti (ra : Reg) (rx : Reg) (addr : Word)
  /-- SRM: LONG (45_store.md R493). -/
  | srm (ra : Reg) (rx : Reg) (addr : Word)
  /-- MOV: RR, two registers (45_store.md R495). -/
  | mov (ra : Reg) (rb : Reg)
  /-- STM: LONG, the raw field n 0 to 15 (45_store.md R497). -/
  | stm (n : BitVec 4) (rx : Reg) (addr : Word)
  /-- EFST: LONG (45_store.md R498). -/
  | efst (ra : Reg) (rx : Reg) (addr : Word)
  /-- STUB: LONG (45_store.md R501). -/
  | stub (ra : Reg) (rx : Reg) (addr : Word)
  /-- STLB: LONG (45_store.md R502). -/
  | stlb (ra : Reg) (rx : Reg) (addr : Word)
  /-- SUBI: LONG (45_store.md R503). -/
  | subi (ra : Reg) (rx : Reg) (addr : Word)
  /-- SLBI: LONG (45_store.md R504). -/
  | slbi (ra : Reg) (rx : Reg) (addr : Word)
  /-- PSHM: RR, two registers (45_store.md R510). -/
  | pshm (ra : Reg) (rb : Reg)
  /-- AR: RR, two registers (46_int_addsub.md R536). -/
  | ar (ra : Reg) (rb : Reg)
  /-- AB: B, base register 12 to 15 (46_int_addsub.md R537). -/
  | ab (br : Reg) (dspl : BitVec 8)
  /-- ABX: BX, base register 12 to 15, opcode bytes 40 to 43 (46_int_addsub.md R538). -/
  | abx (br : Reg) (rx : Reg)
  /-- AISP: RR, a register and an operand 1 to 16 (the field holds n - 1) (46_int_addsub.md R539). -/
  | aisp (ra : Reg) (n : Nat)
  /-- A: LONG (46_int_addsub.md R540). -/
  | a (ra : Reg) (rx : Reg) (addr : Word)
  /-- AIM: IMX, opcode byte 4A (46_int_addsub.md R541). -/
  | aim (ra : Reg) (data : Word)
  /-- INCM: LONG, a count 1 to 16 (the field holds n - 1) (46_int_addsub.md R543). -/
  | incm (n : Nat) (rx : Reg) (addr : Word)
  /-- ABS: RR, two registers (46_int_addsub.md R545). -/
  | abs (ra : Reg) (rb : Reg)
  /-- DABS: RR, two registers (46_int_addsub.md R546). -/
  | dabs (ra : Reg) (rb : Reg)
  /-- DAR: RR, two registers (46_int_addsub.md R549). -/
  | dar (ra : Reg) (rb : Reg)
  /-- DA: LONG (46_int_addsub.md R550). -/
  | da (ra : Reg) (rx : Reg) (addr : Word)
  /-- SR: RR, two registers (46_int_addsub.md R553). -/
  | sr (ra : Reg) (rb : Reg)
  /-- SBB: B, base register 12 to 15 (46_int_addsub.md R554). -/
  | sbb (br : Reg) (dspl : BitVec 8)
  /-- SBBX: BX, base register 12 to 15, opcode bytes 40 to 43 (46_int_addsub.md R555). -/
  | sbbx (br : Reg) (rx : Reg)
  /-- SISP: RR, a register and an operand 1 to 16 (the field holds n - 1) (46_int_addsub.md R556). -/
  | sisp (ra : Reg) (n : Nat)
  /-- S: LONG (46_int_addsub.md R557). -/
  | s (ra : Reg) (rx : Reg) (addr : Word)
  /-- SIM: IMX, opcode byte 4A (46_int_addsub.md R558). -/
  | sim (ra : Reg) (data : Word)
  /-- DECM: LONG, a count 1 to 16 (the field holds n - 1) (46_int_addsub.md R560). -/
  | decm (n : Nat) (rx : Reg) (addr : Word)
  /-- NEG: RR, two registers (46_int_addsub.md R562). -/
  | neg (ra : Reg) (rb : Reg)
  /-- DNEG: RR, two registers (46_int_addsub.md R563). -/
  | dneg (ra : Reg) (rb : Reg)
  /-- DSR: RR, two registers (46_int_addsub.md R566). -/
  | dsr (ra : Reg) (rb : Reg)
  /-- DS: LONG (46_int_addsub.md R567). -/
  | ds (ra : Reg) (rx : Reg) (addr : Word)
  /-- MSR: RR, two registers (47_int_muldiv.md R591). -/
  | msr (ra : Reg) (rb : Reg)
  /-- MISP: RR, a register and an operand 1 to 16 (the field holds n - 1) (47_int_muldiv.md R592). -/
  | misp (ra : Reg) (n : Nat)
  /-- MISN: RR, a register and an operand 1 to 16 (the field holds n - 1) (47_int_muldiv.md R593). -/
  | misn (ra : Reg) (n : Nat)
  /-- MS: LONG (47_int_muldiv.md R594). -/
  | ms (ra : Reg) (rx : Reg) (addr : Word)
  /-- MSIM: IMX, opcode byte 4A (47_int_muldiv.md R595). -/
  | msim (ra : Reg) (data : Word)
  /-- MR: RR, two registers (47_int_muldiv.md R599). -/
  | mr (ra : Reg) (rb : Reg)
  /-- MB: B, base register 12 to 15 (47_int_muldiv.md R600). -/
  | mb (br : Reg) (dspl : BitVec 8)
  /-- MBX: BX, base register 12 to 15, opcode bytes 40 to 43 (47_int_muldiv.md R601). -/
  | mbx (br : Reg) (rx : Reg)
  /-- M: LONG (47_int_muldiv.md R602). -/
  | m (ra : Reg) (rx : Reg) (addr : Word)
  /-- MIM: IMX, opcode byte 4A (47_int_muldiv.md R603). -/
  | mim (ra : Reg) (data : Word)
  /-- DMR: RR, two registers (47_int_muldiv.md R607). -/
  | dmr (ra : Reg) (rb : Reg)
  /-- DM: LONG (47_int_muldiv.md R608). -/
  | dm (ra : Reg) (rx : Reg) (addr : Word)
  /-- DVR: RR, two registers (47_int_muldiv.md R612). -/
  | dvr (ra : Reg) (rb : Reg)
  /-- DISP: RR, a register and an operand 1 to 16 (the field holds n - 1) (47_int_muldiv.md R613). -/
  | disp (ra : Reg) (n : Nat)
  /-- DISN: RR, a register and an operand 1 to 16 (the field holds n - 1) (47_int_muldiv.md R614). -/
  | disn (ra : Reg) (n : Nat)
  /-- DV: LONG (47_int_muldiv.md R615). -/
  | dv (ra : Reg) (rx : Reg) (addr : Word)
  /-- DVIM: IMX, opcode byte 4A (47_int_muldiv.md R616). -/
  | dvim (ra : Reg) (data : Word)
  /-- DR: RR, two registers (47_int_muldiv.md R621). -/
  | dr (ra : Reg) (rb : Reg)
  /-- DB: B, base register 12 to 15 (47_int_muldiv.md R622). -/
  | db (br : Reg) (dspl : BitVec 8)
  /-- DBX: BX, base register 12 to 15, opcode bytes 40 to 43 (47_int_muldiv.md R623). -/
  | dbx (br : Reg) (rx : Reg)
  /-- D: LONG (47_int_muldiv.md R624). -/
  | d (ra : Reg) (rx : Reg) (addr : Word)
  /-- DIM: IMX, opcode byte 4A (47_int_muldiv.md R625). -/
  | dim (ra : Reg) (data : Word)
  /-- DDR: RR, two registers (47_int_muldiv.md R631). -/
  | ddr (ra : Reg) (rb : Reg)
  /-- DD: LONG (47_int_muldiv.md R632). -/
  | dd (ra : Reg) (rx : Reg) (addr : Word)
  /-- FAR: RR, two registers (48_float.md R656). -/
  | far (ra : Reg) (rb : Reg)
  /-- FAB: B, base register 12 to 15 (48_float.md R657). -/
  | fab (br : Reg) (dspl : BitVec 8)
  /-- FABX: BX, base register 12 to 15, opcode bytes 40 to 43 (48_float.md R658). -/
  | fabx (br : Reg) (rx : Reg)
  /-- FA: LONG (48_float.md R659). -/
  | fa (ra : Reg) (rx : Reg) (addr : Word)
  /-- EFAR: RR, two registers (48_float.md R660). -/
  | efar (ra : Reg) (rb : Reg)
  /-- EFA: LONG (48_float.md R661). -/
  | efa (ra : Reg) (rx : Reg) (addr : Word)
  /-- FSR: RR, two registers (48_float.md R664). -/
  | fsr (ra : Reg) (rb : Reg)
  /-- FSB: B, base register 12 to 15 (48_float.md R665). -/
  | fsb (br : Reg) (dspl : BitVec 8)
  /-- FSBX: BX, base register 12 to 15, opcode bytes 40 to 43 (48_float.md R666). -/
  | fsbx (br : Reg) (rx : Reg)
  /-- FS: LONG (48_float.md R667). -/
  | fs (ra : Reg) (rx : Reg) (addr : Word)
  /-- EFSR: RR, two registers (48_float.md R668). -/
  | efsr (ra : Reg) (rb : Reg)
  /-- EFS: LONG (48_float.md R669). -/
  | efs (ra : Reg) (rx : Reg) (addr : Word)
  /-- FABS: RR, two registers (48_float.md R672). -/
  | fabs (ra : Reg) (rb : Reg)
  /-- FNEG: RR, two registers (48_float.md R673). -/
  | fneg (ra : Reg) (rb : Reg)
  /-- FMR: RR, two registers (48_float.md R677). -/
  | fmr (ra : Reg) (rb : Reg)
  /-- FMB: B, base register 12 to 15 (48_float.md R678). -/
  | fmb (br : Reg) (dspl : BitVec 8)
  /-- FMBX: BX, base register 12 to 15, opcode bytes 40 to 43 (48_float.md R679). -/
  | fmbx (br : Reg) (rx : Reg)
  /-- FM: LONG (48_float.md R680). -/
  | fm (ra : Reg) (rx : Reg) (addr : Word)
  /-- EFMR: RR, two registers (48_float.md R681). -/
  | efmr (ra : Reg) (rb : Reg)
  /-- EFM: LONG (48_float.md R682). -/
  | efm (ra : Reg) (rx : Reg) (addr : Word)
  /-- FDR: RR, two registers (48_float.md R686). -/
  | fdr (ra : Reg) (rb : Reg)
  /-- FDB: B, base register 12 to 15 (48_float.md R687). -/
  | fdb (br : Reg) (dspl : BitVec 8)
  /-- FDBX: BX, base register 12 to 15, opcode bytes 40 to 43 (48_float.md R688). -/
  | fdbx (br : Reg) (rx : Reg)
  /-- FD: LONG (48_float.md R689). -/
  | fd (ra : Reg) (rx : Reg) (addr : Word)
  /-- EFDR: RR, two registers (48_float.md R690). -/
  | efdr (ra : Reg) (rb : Reg)
  /-- EFD: LONG (48_float.md R691). -/
  | efd (ra : Reg) (rx : Reg) (addr : Word)
  /-- FIX: RR, two registers (48_float.md R694). -/
  | fix (ra : Reg) (rb : Reg)
  /-- FLT: RR, two registers (48_float.md R695). -/
  | flt (ra : Reg) (rb : Reg)
  /-- EFIX: RR, two registers (48_float.md R696). -/
  | efix (ra : Reg) (rb : Reg)
  /-- EFLT: RR, two registers (48_float.md R697). -/
  | eflt (ra : Reg) (rb : Reg)
  /-- FCR: RR, two registers (48_float.md R701). -/
  | fcr (ra : Reg) (rb : Reg)
  /-- FCB: B, base register 12 to 15 (48_float.md R702). -/
  | fcb (br : Reg) (dspl : BitVec 8)
  /-- FCBX: BX, base register 12 to 15, opcode bytes 40 to 43 (48_float.md R703). -/
  | fcbx (br : Reg) (rx : Reg)
  /-- FC: LONG (48_float.md R704). -/
  | fc (ra : Reg) (rx : Reg) (addr : Word)
  /-- EFCR: RR, two registers (48_float.md R705). -/
  | efcr (ra : Reg) (rb : Reg)
  /-- EFC: LONG (48_float.md R706). -/
  | efc (ra : Reg) (rx : Reg) (addr : Word)
  /-- ORR: RR, two registers (49_logic_compare_misc.md R731). -/
  | orr (ra : Reg) (rb : Reg)
  /-- ORB: B, base register 12 to 15 (49_logic_compare_misc.md R732). -/
  | orb (br : Reg) (dspl : BitVec 8)
  /-- ORBX: BX, base register 12 to 15, opcode bytes 40 to 43 (49_logic_compare_misc.md R733). -/
  | orbx (br : Reg) (rx : Reg)
  /-- OR: LONG (49_logic_compare_misc.md R734). -/
  | or (ra : Reg) (rx : Reg) (addr : Word)
  /-- ORIM: IMX, opcode byte 4A (49_logic_compare_misc.md R735). -/
  | orim (ra : Reg) (data : Word)
  /-- ANDR: RR, two registers (49_logic_compare_misc.md R739). -/
  | andr (ra : Reg) (rb : Reg)
  /-- ANDB: B, base register 12 to 15 (49_logic_compare_misc.md R740). -/
  | andb (br : Reg) (dspl : BitVec 8)
  /-- ANDX: BX, base register 12 to 15, opcode bytes 40 to 43 (49_logic_compare_misc.md R741). -/
  | andx (br : Reg) (rx : Reg)
  /-- AND: LONG (49_logic_compare_misc.md R742). -/
  | and (ra : Reg) (rx : Reg) (addr : Word)
  /-- ANDM: IMX, opcode byte 4A (49_logic_compare_misc.md R743). -/
  | andm (ra : Reg) (data : Word)
  /-- XORR: RR, two registers (49_logic_compare_misc.md R747). -/
  | xorr (ra : Reg) (rb : Reg)
  /-- XOR: LONG (49_logic_compare_misc.md R748). -/
  | xor (ra : Reg) (rx : Reg) (addr : Word)
  /-- XORM: IMX, opcode byte 4A (49_logic_compare_misc.md R749). -/
  | xorm (ra : Reg) (data : Word)
  /-- NR: RR, two registers (49_logic_compare_misc.md R753). -/
  | nr (ra : Reg) (rb : Reg)
  /-- N: LONG (49_logic_compare_misc.md R754). -/
  | n (ra : Reg) (rx : Reg) (addr : Word)
  /-- NIM: IMX, opcode byte 4A (49_logic_compare_misc.md R755). -/
  | nim (ra : Reg) (data : Word)
  /-- XBR: RR, second field 0 (49_logic_compare_misc.md R758). -/
  | xbr (ra : Reg)
  /-- XWR: RR, two registers (49_logic_compare_misc.md R759). -/
  | xwr (ra : Reg) (rb : Reg)
  /-- CR: RR, two registers (49_logic_compare_misc.md R763). -/
  | cr (ra : Reg) (rb : Reg)
  /-- CB: B, base register 12 to 15 (49_logic_compare_misc.md R764). -/
  | cb (br : Reg) (dspl : BitVec 8)
  /-- CBX: BX, base register 12 to 15, opcode bytes 40 to 43 (49_logic_compare_misc.md R765). -/
  | cbx (br : Reg) (rx : Reg)
  /-- CISP: RR, a register and an operand 1 to 16 (the field holds n - 1) (49_logic_compare_misc.md R766). -/
  | cisp (ra : Reg) (n : Nat)
  /-- CISN: RR, a register and an operand 1 to 16 (the field holds n - 1) (49_logic_compare_misc.md R767). -/
  | cisn (ra : Reg) (n : Nat)
  /-- C: LONG (49_logic_compare_misc.md R768). -/
  | c (ra : Reg) (rx : Reg) (addr : Word)
  /-- CIM: IMX, opcode byte 4A (49_logic_compare_misc.md R769). -/
  | cim (ra : Reg) (data : Word)
  /-- CBL: LONG (49_logic_compare_misc.md R772). -/
  | cbl (ra : Reg) (rx : Reg) (addr : Word)
  /-- DCR: RR, two registers (49_logic_compare_misc.md R775). -/
  | dcr (ra : Reg) (rb : Reg)
  /-- DC: LONG (49_logic_compare_misc.md R776). -/
  | dc (ra : Reg) (rx : Reg) (addr : Word)
  /-- NOP: S (49_logic_compare_misc.md R788). -/
  | nop
  /-- BPT: S (49_logic_compare_misc.md R790). -/
  | bpt
  /-- BIF: S (49_logic_compare_misc.md R794). -/
  | builtin (opex : BitVec 8)
deriving DecidableEq, Repr

end Sys2Proof
end

