-- ==== Sys2Proof/Machine/State.lean ====
section
/-! DEFINITION. The state of the machine, all of it plain data, the reasons a step can stop, and the reset state
(10_state.md, 70_reset_and_hazards.md R871). -/

namespace Sys2Proof.Machine

/-- Something sent to the outside (40_io.md R255, R258, R268, R289). -/
inductive Output where
  /-- PO: a port and a word (R255). -/
  | pio (port : BitVec 10) (w : Word)
  /-- CO: one byte to the console (R258). -/
  | console (b : Byte)
  /-- GO: the Go counter restarted (R268). -/
  | go
  /-- A spare output command and its word (R289). -/
  | spare (cmd w : Word)
deriving DecidableEq, Repr

/-- The address a DMA device supplies (60_exceptions.md R847): unmapped, or logical with the address state and access
key of the device (`DMA_AS`, `DMA_KEY` of R5). -/
inductive DmaAddress where
  | physical (pa : BitVec 20)
  | logical (la : Word) (as key : BitVec 4)
deriving DecidableEq, Repr

/-- What a DMA device does at its address. -/
inductive DmaAction where
  | read
  | write (w : Word)
deriving DecidableEq, Repr

/-- One DMA reference (60_exceptions.md R847). -/
structure DmaRef where
  address : DmaAddress
  action : DmaAction
deriving DecidableEq, Repr

/-- DMA as the model carries it (20_memory.md R145, D5, entry 20). -/
structure DmaTraffic where
  /-- The references that come before each coming word reference of the CPU. -/
  slots : List (List DmaRef)
  /-- The words that DMA reads have returned, oldest first. -/
  received : List Word
deriving DecidableEq, Repr

/-- The fault register bits that something sets (10_state.md R48). -/
inductive FaultBit where
  | cpuProtect
  | dmaProtect
  | parity
  | pioParity
  | dmaParity
  | illegalIo
  | pioTransmission
  | spare7
  | illegalAddress
  | illegalInstruction
  | privileged
  | addressState
  | bite
  | spareBite14
  | spareBite15
deriving DecidableEq, Repr

/-- A fault signal from outside the CPU's instructions (60_exceptions.md R800, R806). -/
inductive FaultSignal where
  /-- FT bit 2 with the designators of the reference. -/
  | parity (la : Word) (instruction : Bool) (as : BitVec 4)
  /-- FT bit 3. -/
  | pioParity
  /-- FT bit 4. -/
  | dmaParity
  /-- FT bit 6. -/
  | pioTransmission
  /-- FT bit 7. -/
  | spare7
  /-- FT bit 13. -/
  | bite
  /-- FT bit 14. -/
  | spareBite14
  /-- FT bit 15. -/
  | spareBite15
deriving DecidableEq, Repr

/-- One of the two input/output interrupt levels (60_exceptions.md R846). -/
inductive IoLevel where
  | level1
  | level2
deriving DecidableEq, Repr

/-- What the outside can do at an instruction boundary (70_reset_and_hazards.md R892). -/
inductive Event where
  /-- A count of timer A (60_exceptions.md R841). -/
  | tickA
  /-- A count of timer B (R841). -/
  | tickB
  /-- A count of the Go counter (40_io.md R268). -/
  | goTick
  /-- A system interrupt signal (R812). -/
  | interrupt (n : BitVec 4)
  /-- An I/O channel requests an interrupt (R846). -/
  | channel (level : IoLevel) (number : BitVec 7)
  /-- A fault signal (R800). -/
  | fault (f : FaultSignal)
  /-- A DMA reference (R847). -/
  | dma (r : DmaRef)
  /-- The physical words with bad parity from now on (20_memory.md R134). -/
  | badParity (words : List Nat)
  /-- The discrete inputs (40_io.md R279). -/
  | discretes (w : Word)
  /-- A byte arrives from the console (R282). -/
  | consoleByte (b : Byte)
  /-- The console takes what was sent to it. -/
  | consoleTake
  /-- The console interface status (R283). -/
  | consoleStatus (w : Word)
deriving DecidableEq, Repr

/-- Page registers, block protect RAM, start up ROM enable (10_state.md R54, R57, R58) and the parity oracle. -/
structure MemControl where
  /-- Instruction set, index group and page (R54). -/
  iPage : Vector Word 256
  /-- Operand set, index group and page (R54). -/
  oPage : Vector Word 256
  /-- Memory protect RAM (R57). -/
  mpr : Vector Word 128
  /-- `MPROT_EN` (R57). -/
  mprotEn : Bool
  /-- `SUROM_EN` (R58). -/
  suromEn : Bool
  /-- The model's own: physical words with bad parity (20_memory.md R134, entry 29). -/
  badParity : List Nat
deriving DecidableEq, Repr

/-- The devices reached by XIO (10_state.md R53, R56, R58). -/
structure Devices where
  /-- Timer A (R56). -/
  ta : Word
  /-- Timer B (R56). -/
  tb : Word
  /-- `TA_RUN` (60_exceptions.md R840). -/
  taRun : Bool
  /-- `TB_RUN` (R840). -/
  tbRun : Bool
  /-- IOIC level 1, the channel number (R53). -/
  ioic1 : BitVec 7
  /-- IOIC level 2 (R53). -/
  ioic2 : BitVec 7
  /-- IOIC level 1 is held until read (R53, R66). -/
  ioicHold1 : Bool
  /-- IOIC level 2 is held until read. -/
  ioicHold2 : Bool
  /-- The channels requesting level 1 whose interrupt sequence has not begun (R53, 60_exceptions.md R846), no repeats. -/
  ioicRequests1 : List (BitVec 7)
  /-- The same for level 2. -/
  ioicRequests2 : List (BitVec 7)
  /-- `DMA_EN` (R58). -/
  dmaEn : Bool
  /-- `DOUT`, the discrete output buffer (R58). -/
  dout : Word
  /-- `DIN`, the discrete inputs (R58). -/
  din : Word
  /-- `NPU`, the normal power up discrete (R58). -/
  npu : Bool
  /-- The Go counter since its restart (R58, 40_io.md R268). -/
  goCount : Nat
  /-- The Go discrete output (40_io.md R268). -/
  goHigh : Bool
  /-- `POBUF`, the programmed output buffer (R58). -/
  pobuf : Word
  /-- Console interface: bytes received, oldest first (R58, 40_io.md R282). -/
  consoleIn : List Byte
  /-- Console interface: bytes sent and not yet taken, oldest first (40_io.md R258). -/
  consoleOut : List Byte
  /-- Console interface status (40_io.md R283). -/
  consoleStatus : Word
  /-- The model's own: everything sent to the outside, oldest first (entry 20). -/
  outputs : List Output
deriving DecidableEq, Repr

/-- The state of the machine. -/
structure State where
  /-- The implementation parameters (00_scope.md R5), fixed for a run. -/
  cfg : Config
  /-- General registers R0 to R15 (10_state.md R30). -/
  regs : Vector Word 16
  /-- Instruction counter (R35): between instructions the next instruction, during one its own first word. -/
  ic : Word
  /-- Status word (R38). -/
  sw : Word
  /-- Fault register (R48). -/
  ft : Word
  /-- Interrupt mask register (R50). -/
  mask : Word
  /-- Pending interrupt register (R51). -/
  pi : Word
  /-- `IEN`, the interrupt enable latch (R52). -/
  ien : Bool
  /-- `ENBL_PENDING` (R52). -/
  enblPending : Bool
  /-- The model's own: pending bits that SPI has set and the coming boundaries do not recognize, the bits released at
  the end of the next boundary first (60_exceptions.md R824, entry 18). -/
  spiHold : List Word
  /-- Memory fault status register (R55). -/
  mfsr : Word
  /-- The model's own: the IC that an interrupt taken at the coming boundary saves where it is not IC, after the last word
  of a MOV (45_store.md R496). -/
  resumeIc : Option Word
  ctl : MemControl
  dev : Devices
  /-- Main memory (20_memory.md R100, R116). -/
  mem : Memory
  /-- The start up ROM's contents (20_memory.md R132). -/
  rom : Memory
  /-- Halted at a breakpoint with a console connected (49_logic_compare_misc.md R790). -/
  halted : Bool
  /-- The model's own: the events after each coming instruction, word transfer of MOV and interrupt sequence
  (92_eei_decisions.md D21, entry 20). -/
  schedule : List (List Event)
  /-- The model's own: DMA inside the coming instructions (20_memory.md R145, entry 20). -/
  dma : DmaTraffic
  /-- The model's own: the FT bit of the latest fault of an instruction or interrupt sequence of the CPU, where a
  modelled run ends (60_exceptions.md R806, entry 5). -/
  raised : Option FaultBit
  /-- The model's own: how many free values have been drawn (entry 6). -/
  freeCount : Nat
deriving DecidableEq, Repr

/-- Why the machine stops. -/
inductive Fault where
  /-- Raised by a step of a processor halted at a breakpoint: how it resumes is outside the model
  (49_logic_compare_misc.md R790, 70_reset_and_hazards.md R891a). Safe: the modelled run ends there. -/
  | haltedAtBreakpoint
deriving DecidableEq, Repr

/-- Why the model refuses a step. -/
inductive Refusal where
  /-- Raised by exec for an instruction with no meaning yet. Safe: no next state is claimed. -/
  | notModelled (mnemonic : String)
  /-- Raised by a CPU memory reference while SW.AS names an unimplemented page group (93_implementation_defined.md U14,
  `refuse`). Safe: no next state is claimed. -/
  | unimplementedGroup
deriving DecidableEq, Repr

/-- What a step or a meaning answers. -/
abbrev Out := Host.Outcome State Fault Refusal

/-- The page registers of a set at reset. -/
def resetPages : Vector Word 256 := ⟨((List.range 256).map resetPage).toArray, by simp⟩

/-- The page registers, block protect RAM and start up ROM enable at reset (10_state.md R68). -/
def MemControl.reset : MemControl where
  iPage := resetPages
  oPage := resetPages
  mpr := Vector.replicate 128 0
  mprotEn := false
  suromEn := true
  badParity := []

/-- The devices at reset (10_state.md R68). -/
def Devices.reset : Devices where
  ta := 0
  tb := 0
  taRun := true
  tbRun := true
  ioic1 := 0
  ioic2 := 0
  ioicHold1 := false
  ioicHold2 := false
  ioicRequests1 := []
  ioicRequests2 := []
  dmaEn := false
  dout := 0
  din := 0
  npu := true
  goCount := 0
  goHigh := true
  pobuf := 0
  consoleIn := []
  consoleOut := []
  consoleStatus := 0
  outputs := []

/-- The machine right after reset (10_state.md R68, 70_reset_and_hazards.md R871). -/
def State.reset : State where
  cfg := defaultConfig
  regs := Vector.replicate 16 resetRegister
  ic := 0
  sw := 0
  ft := 0
  mask := 0
  pi := 0
  ien := false
  enblPending := false
  spiHold := []
  mfsr := 0
  resumeIc := none
  ctl := MemControl.reset
  dev := Devices.reset
  mem := []
  rom := []
  halted := false
  schedule := []
  dma := ⟨[], []⟩
  raised := none
  freeCount := 0

end Sys2Proof.Machine
end

