-- ==== Sys2Proof/Machine/Ops.lean ====
section
/-! DEFINITION. The named operations over registers, status, memory and interrupts that every meaning is written
with: register access, the fields of SW, free values, faults, address translation, memory references, stores, and
entering and returning from an interrupt. -/

namespace Sys2Proof.Machine

/-! ### General registers (10_state.md R30, R32; 00_scope.md R9) -/

/-- `x[r]`. -/
def State.reg (s : State) (r : Reg) : Word := s.regs[r.toNat]'(r.isLt)

/-- `x[r] <- v`. -/
def State.setReg (s : State) (r : Reg) (v : Word) : State := { s with regs := s.regs.set r.toNat v r.isLt }

/-- `xx[r]`: Rr and the next register modulo 16. -/
def State.pair (s : State) (r : Reg) : Long := Long.ofWords (s.reg r) (s.reg (r + 1))

/-- `xx[r] <- v`. -/
def State.setPair (s : State) (r : Reg) (v : Long) : State :=
  (s.setReg r (Long.hi v)).setReg (r + 1) (Long.lo v)

/-- `xxx[r]`: Rr and the next two registers modulo 16. -/
def State.triple (s : State) (r : Reg) : Ext := Ext.ofWords (s.reg r) (s.reg (r + 1)) (s.reg (r + 2))

/-- `xxx[r] <- v`. -/
def State.setTriple (s : State) (r : Reg) (v : Ext) : State :=
  ((s.setReg r (Ext.w0 v)).setReg (r + 1) (Ext.w1 v)).setReg (r + 2) (Ext.w2 v)

/-- R15, the stack pointer of PSHM and POPM (10_state.md R31c). -/
def spReg : Reg := 15

/-! ### Instruction counter (10_state.md R36) -/

/-- `IC <- v`. -/
def State.setIc (s : State) (v : Word) : State := { s with ic := v }

/-- `IC <- pc + len`: `ic` holds the address of the executing instruction. -/
def State.advance (s : State) (len : Word) : State := s.setIc (s.ic + len)

/-! ### Status word (10_state.md R38) -/

/-- CS, the standard's bits 0 to 3. -/
def State.cs (s : State) : BitVec 4 := s.sw.extractLsb' 12 4

/-- PS, the standard's bits 8 to 11. -/
def State.ps (s : State) : BitVec 4 := s.sw.extractLsb' 4 4

/-- AS of a status word, the standard's bits 12 to 15. -/
def asOf (sw : Word) : BitVec 4 := sw.extractLsb' 0 4

/-- AS of the current status word. -/
def State.as (s : State) : BitVec 4 := asOf s.sw

/-- `CS <- v`: all four bits, the rest of SW kept (10_state.md R43). -/
def State.setCs (s : State) (v : BitVec 4) : State :=
  { s with sw := (v ++ s.sw.extractLsb' 0 12 : BitVec (4 + 12)) }

/-! ### Free values (entry 6) -/

/-- The `k`-th free word from here on. -/
def State.free (s : State) (k : Nat) : Word := Config.freeWord (s.freeCount + k)

/-- The `k`-th free choice from here on. -/
def State.freeBit (s : State) (k : Nat) : Bool := Config.freeBit (s.freeCount + k)

/-- `n` free values are used up. -/
def State.spend (s : State) (n : Nat) : State := { s with freeCount := s.freeCount + n }

/-! ### Writing the whole status word (10_state.md R45, R46) -/

/-- `SW <- v`; non-zero reserved bits store a free value (R46, D15, entry 10). -/
def State.writeSw (s : State) (v : Word) : State :=
  if v.extractLsb' 8 4 = 0#4 then { s with sw := v }
  else
    { s with
      sw := (v.extractLsb' 12 4 ++ (s.free 0).extractLsb' 0 4 ++ v.extractLsb' 0 8 : BitVec (4 + 4 + 8))
      freeCount := s.freeCount + 1 }

/-- The AS values SW may take without an address state fault (R45, D13). -/
def asLegal (c : Config) (as : BitVec 4) : Bool :=
  match c.mmu with
  | none => as == 0#4
  | some m => decide (as.toNat < m.groups.toNat)

/-- The page group of a reference exists; without expanded memory no group is consulted (20_memory.md R120). -/
def groupImplemented (c : Config) (g : BitVec 4) : Bool :=
  match c.mmu with
  | none => true
  | some m => decide (g.toNat < m.groups.toNat)

/-! ### Pending interrupts (10_state.md R51, 60_exceptions.md R812) -/

/-- The bit `PI<n>`, `MK<n>` or `FT<n>`: bit `n` from the most significant end. -/
def bitMask (n : BitVec 4) : Word := 0x8000#16 >>> n.toNat

/-- Bit `n` of a word, bit 0 the most significant (00_scope.md R7). -/
def stdBit (w : Word) (n : BitVec 4) : Bool := w.getLsbD (15 - n.toNat)

/-- The bits `m` are no longer held back (60_exceptions.md R824). -/
def releaseHold (m : Word) (held : List Word) : List Word := held.map fun h => h &&& ~~~m

/-- The bits `m` are held back at the next boundary and the `n` after it, `n + 1` in all (R824, `SPI_LATENCY`). -/
def addHold (m : Word) : Nat → List Word → List Word
  | 0, [] => [m]
  | 0, h :: rest => (h ||| m) :: rest
  | n + 1, [] => 0 :: addHold m n []
  | n + 1, h :: rest => h :: addHold m n rest

/-- The bits `m` are held back for the latency `n` in boundaries, none for a latency of 0. -/
def holdFor (m : Word) (n : Nat) (held : List Word) : List Word :=
  match n with
  | 0 => held
  | k + 1 => addHold m k held

/-- All bits held back at this boundary. -/
def heldBits (held : List Word) : Word := held.foldl (· ||| ·) 0

/-- Set pending bits; a bit set by anything but SPI is not held back (R812, entry 18). -/
def State.requestMask (s : State) (m : Word) : State :=
  { s with pi := s.pi ||| m, spiHold := releaseHold m s.spiHold }

/-- `PI<n> <- 1`. -/
def State.request (s : State) (n : BitVec 4) : State := s.requestMask (bitMask n)

/-- `PI<n> <- 1` if `b`. -/
def State.requestIf (s : State) (b : Bool) (n : BitVec 4) : State := if b then s.request n else s

/-- Floating point overflow, interrupt 3 (60_exceptions.md R810). -/
def intFloatOverflow : BitVec 4 := 3
/-- Fixed point overflow, interrupt 4. -/
def intFixedOverflow : BitVec 4 := 4
/-- Executive call, interrupt 5. -/
def intExecutive : BitVec 4 := 5
/-- Floating point underflow, interrupt 6. -/
def intFloatUnderflow : BitVec 4 := 6
/-- Machine error, interrupt 1. -/
def intMachineError : BitVec 4 := 1

/-! ### Faults (10_state.md R48, 60_exceptions.md R800, R806) -/

/-- The number of a fault bit (10_state.md R48); that of the illegal instruction is a parameter (R5, D3). -/
def FaultBit.number (c : Config) : FaultBit → BitVec 4
  | .cpuProtect => 0
  | .dmaProtect => 1
  | .parity => 2
  | .pioParity => 3
  | .dmaParity => 4
  | .illegalIo => 5
  | .pioTransmission => 6
  | .spare7 => 7
  | .illegalAddress => 8
  | .illegalInstruction => c.ftIllegalInstr
  | .privileged => 10
  | .addressState => 11
  | .bite => 13
  | .spareBite14 => 14
  | .spareBite15 => 15

/-- A fault to raise: its bit and, for a memory reference, the designators of MFSR. -/
structure FaultReq where
  bit : FaultBit
  designators : Option Word
deriving DecidableEq, Repr

/-- The MFSR word of a reference: LPA, reserved zeros, IO, AS (10_state.md R55, 20_memory.md R136). -/
def designatorsOf (la : Word) (instruction : Bool) (as : BitVec 4) : Word :=
  (la.extractLsb' 12 4 ++ 0#7 ++ BitVec.ofBool instruction ++ as : BitVec (4 + 7 + 1 + 4))

/-- `FT<b> <- 1; PI<1> <- 1`, and MFSR for a memory fault (60_exceptions.md R806). -/
def State.setFault (s : State) (f : FaultReq) : State :=
  let s := { s with ft := s.ft ||| bitMask (f.bit.number s.cfg) }.request intMachineError
  match f.designators with
  | some w => if s.cfg.hasMfsr then { s with mfsr := w } else s
  | none => s

/-- `raise Fault(b)` by the CPU's own instruction, bits other than 5: nothing later in the rule is done and IC is a
free value; `raised` names the bit (60_exceptions.md R806, D18, entry 5). -/
def State.raise (s : State) (f : FaultReq) : State :=
  let s := s.setFault f
  { (s.setIc (s.free 0)).spend 1 with raised := some f.bit }

/-- The illegal I/O command fault: the instruction completes as a no-operation of `len` words (60_exceptions.md R806). -/
def State.raiseIllegalIo (s : State) (len : Word) : State := (s.setFault ⟨.illegalIo, none⟩).advance len

/-- The illegal instruction fault (30_encoding.md R195). -/
def illegalInstruction : FaultReq := ⟨.illegalInstruction, none⟩

/-- The privileged instruction fault (60_exceptions.md R830). -/
def privilegedFault : FaultReq := ⟨.privileged, none⟩

/-- The address state fault (10_state.md R45, D13). -/
def addressStateFault : FaultReq := ⟨.addressState, none⟩

/-- Why a memory reference of an instruction does not happen. -/
inductive Stop where
  /-- The machine raises a fault. -/
  | fault (f : FaultReq)
  /-- The model refuses (93_implementation_defined.md U14). -/
  | refuse (r : Refusal)
deriving DecidableEq, Repr

/-- An instruction ends at a reference that does not happen. -/
def State.stop (s : State) : Stop → Out
  | .fault f => .next (s.raise f)
  | .refuse r => .refused r

/-- What storing words did. -/
inductive Stored where
  | done (s : State)
  | faulted (f : FaultReq) (s : State)
deriving DecidableEq, Repr

/-! ### Translation and protection (20_memory.md R120 to R136) -/

/-- The kind of a reference (R120). -/
inductive RefKind where
  | fetch
  | read
  | write
deriving DecidableEq, Repr

/-- Who makes a reference (R130, 60_exceptions.md R800). -/
inductive Agent where
  | cpu
  | dma
deriving DecidableEq, Repr

/-- `key_ok` of Table VII (R127). -/
def keyOk (al key : BitVec 4) : Bool := key == 0#4 || al == 0xF#4 || key == al

/-- The page register of a logical address: the instruction set for a fetch, else the operand set (R120, R121). -/
def State.pageReg (s : State) (k : RefKind) (group : BitVec 4) (la : Word) : Word :=
  let i : BitVec 8 := group ++ la.extractLsb' 12 4
  match k with
  | .fetch => s.ctl.iPage[i.toNat]'(i.isLt)
  | _ => s.ctl.oPage[i.toNat]'(i.isLt)

/-- The fault bit of a protection fault (20_memory.md R127, R128, R130). -/
def protectBit : Agent → FaultBit
  | .cpu => .cpuProtect
  | .dma => .dmaProtect

/-- The page step of translation: lock and key, E or W, then PPA and offset (R120). `key = none` skips the lock (D30). -/
def State.mapPage (s : State) (agent : Agent) (k : RefKind) (group : BitVec 4) (key : Option (BitVec 4)) (la : Word) :
    Except FaultReq Nat :=
  match s.cfg.mmu with
  | none => .ok la.toNat
  | some m =>
    let r := s.pageReg k group la
    let locked := match key with
      | none => false
      | some key => m.hasLock && !keyOk (r.extractLsb' 12 4) key
    let barred := k != .read && r.getLsbD 11
    if locked || barred then .error ⟨protectBit agent, some (designatorsOf la (k == .fetch) group)⟩
    else .ok ((r.extractLsb' 0 8).toNat * 4096 + (la.extractLsb' 0 12).toNat)

/-- The number of physical addresses: 16 bits without expanded memory, 20 with it (R116). -/
def physSize (c : Config) : Nat := if c.mmu.isSome then 1048576 else 65536

/-- The block protect RAM refuses a write; it says nothing of an address past the physical space (R130, entry
31). -/
def State.blockProtected (s : State) (agent : Agent) (pa : Nat) : Bool :=
  let base := match agent with
    | .cpu => 0
    | .dma => 64
  let i : BitVec 7 := BitVec.ofNat 7 (base + pa / 16384)
  s.cfg.hasMprot && s.ctl.mprotEn && decide (pa < physSize s.cfg) && stdBit (s.ctl.mpr[i.toNat]'(i.isLt)) (BitVec.ofNat 4 (pa / 1024))

/-- The start up ROM overlays this physical address (R132). -/
def State.romOverlay (s : State) (pa : Nat) : Bool :=
  match s.cfg.surom with
  | none => false
  | some n => s.ctl.suromEn && decide (pa ≤ n.val)

/-- `PHYS_IMPLEMENTED(pa)` (R116). -/
def physImplemented (c : Config) (pa : Nat) : Bool :=
  decide (pa < physSize c) &&
    c.physRanges.any fun r => decide (r.1 ≤ pa ∧ pa < r.1 + r.2)

/-- The physical step: block protect, start up ROM, unimplemented memory, parity, in the order of R120. -/
def State.checkPhysical (s : State) (agent : Agent) (k : RefKind) (designators : Word) (pa : Nat) :
    Except FaultReq Nat :=
  if k = .write ∧ s.blockProtected agent pa then .error ⟨protectBit agent, some designators⟩
  else if k ≠ .write ∧ s.romOverlay pa then .ok pa
  else if !physImplemented s.cfg pa then .error ⟨.illegalAddress, some designators⟩
  else if s.cfg.hasParity ∧ s.ctl.badParity.contains pa then .error ⟨.parity, some designators⟩
  else .ok pa

/-- A logical address as a physical one, or the fault of the reference (R120). -/
def State.translate (s : State) (agent : Agent) (k : RefKind) (group : BitVec 4) (key : Option (BitVec 4)) (la : Word) :
    Except FaultReq Nat :=
  match s.mapPage agent k group key la with
  | .error f => .error f
  | .ok pa => s.checkPhysical agent k (designatorsOf la (k == .fetch) group) pa

/-! ### Memory references (20_memory.md R110 to R112) -/

/-- A read of a physical word: the ROM where it overlays (R132). -/
def State.physRead (s : State) (pa : Nat) : Word :=
  if s.romOverlay pa then Memory.readWord s.rom pa else Memory.readWord s.mem pa

/-- A write of a physical word, always to main memory (R132). -/
def State.physWrite (s : State) (pa : Nat) (w : Word) : State := { s with mem := Memory.writeWord s.mem pa w }

/-! ### DMA between the CPU's word references (60_exceptions.md R847; 20_memory.md R145, D5) -/

/-- The physical address of a DMA reference, or its fault (60_exceptions.md R847). An unmapped reference has no page
designators: LPA and AS of MFSR are then free values (entry 30). -/
def State.dmaTranslate (s : State) (k : RefKind) : DmaAddress → Except FaultReq Nat
  | .physical pa =>
    s.checkPhysical .dma k (designatorsOf (s.free 0) false ((s.free 1).extractLsb' 0 4)) pa.toNat
  | .logical la as key => s.translate .dma k as (some key) la

/-- A logical DMA address names a group that exists (entry 31). -/
def dmaGroupOk (c : Config) : DmaAddress → Bool
  | .physical _ => true
  | .logical _ as _ => groupImplemented c as

/-- One DMA reference (60_exceptions.md R847): while `DMA_EN` = 1, checked as a reference of a device; a read returns
the word a CPU read would (20_memory.md R132); a fault sets FT and PI and disturbs nothing else (R806). -/
def State.dmaReference (s : State) (r : DmaRef) : State :=
  if s.cfg.hasDma && s.dev.dmaEn && dmaGroupOk s.cfg r.address then
    match r.action with
    | .read =>
      match s.dmaTranslate .read r.address with
      | .error f => (s.setFault f).spend 2
      | .ok pa => { s with dma := { s.dma with received := s.dma.received ++ [s.physRead pa] } }
    | .write w =>
      match s.dmaTranslate .write r.address with
      | .error f => (s.setFault f).spend 2
      | .ok pa => s.physWrite pa w
  else s

/-- DMA references in their order. -/
def State.dmaReferences (s : State) : List DmaRef → State
  | [] => s
  | r :: rest => (s.dmaReference r).dmaReferences rest

/-- The state in which the CPU makes its next word reference: the DMA references that come before it are done (R145, D5).
Every word reference of the CPU is made in `turn` of the state before it. -/
def State.turn (s : State) : State :=
  match s.dma.slots with
  | [] => s
  | refs :: rest => { s with dma := { s.dma with slots := rest } }.dmaReferences refs

/-- The state in which the CPU makes the `n`-th word reference from here. -/
def State.turns (s : State) : Nat → State
  | 0 => s
  | n + 1 => s.turn.turns n

/-! ### Word references of the CPU (20_memory.md R110 to R112) -/

/-- What a CPU reference of one word made now finds, by a fetch or as an operand, under SW's AS and PS (R110, R112). -/
def State.cpuRead (s : State) (k : RefKind) (la : Word) : Except Stop Word :=
  let t := s.turn
  if groupImplemented t.cfg t.as then
    match t.translate .cpu k t.as (some t.ps) la with
    | .error f => .error (.fault f)
    | .ok pa => .ok (t.physRead pa)
  else .error (.refuse .unimplementedGroup)

/-- What `MemFetch(la)` finds (R112). -/
def State.fetch (s : State) (la : Word) : Except Stop Word := s.cpuRead .fetch la

/-- What `MemRead(la, 1)` finds (R110). -/
def State.read (s : State) (la : Word) : Except Stop Word := s.cpuRead .read la

/-- What a read through the operand set of group 0 with the lock ignored finds, for vector table and service block
(20_memory.md R121, 60_exceptions.md R816). -/
def State.vectorRead (s : State) (la : Word) : Except FaultReq Word :=
  let t := s.turn
  match t.translate .cpu .read 0#4 none la with
  | .error f => .error f
  | .ok pa => .ok (t.physRead pa)

/-- `MemRead(la, 1)`, then the rest of a rule with the word, in the state the reference leaves; or the end of the
instruction at its fault (60_exceptions.md R806). -/
def State.readThen (s : State) (la : Word) (k : Word → State → Out) : Out :=
  match s.read la with
  | .error e => s.turn.stop e
  | .ok v => k v s.turn

/-- `MemRead(la, 2)`: most significant word first, each word its own reference (R105, R110). -/
def State.readThen2 (s : State) (la : Word) (k : Long → State → Out) : Out :=
  s.readThen la fun hi s => s.readThen (la + 1) fun lo s => k (Long.ofWords hi lo) s

/-- `MemRead(la, 3)` (R105, R110). -/
def State.readThen3 (s : State) (la : Word) (k : Ext → State → Out) : Out :=
  s.readThen la fun w0 s => s.readThen (la + 1) fun w1 s => s.readThen (la + 2) fun w2 s => k (Ext.ofWords w0 w1 w2) s

/-- The words at `count` consecutive addresses, as instruction references (49_logic_compare_misc.md R794). -/
def State.fetchThen (k : List Word → State → Out) : Nat → Word → List Word → State → Out
  | 0, _, ws, s => k ws s
  | count + 1, la, ws, s =>
    match s.fetch la with
    | .error e => s.turn.stop e
    | .ok w => State.fetchThen k count (la + 1) (ws ++ [w]) s.turn

/-- The first fault among the words of a store, with its position. -/
def State.firstFault (s : State) (group : BitVec 4) (key : Option (BitVec 4)) :
    List (Word × Word) → Option (FaultReq × Nat)
  | [] => none
  | (la, _) :: rest =>
    match s.translate .cpu .write group key la with
    | .error f => some (f, 0)
    | .ok _ =>
      match s.firstFault group key rest with
      | none => none
      | some (f, n) => some (f, n + 1)

/-- Store the words whose references are not refused and whose position `pick` selects, in order, each its own
reference. -/
def State.storePicked (s : State) (group : BitVec 4) (key : Option (BitVec 4)) (pick : Nat → Bool) :
    Nat → List (Word × Word) → State
  | _, [] => s
  | n, (la, w) :: rest =>
    match s.turn.translate .cpu .write group key la with
    | .error _ => s.turn.storePicked group key pick (n + 1) rest
    | .ok pa =>
      if pick n then (s.turn.physWrite pa w).storePicked group key pick (n + 1) rest
      else s.turn.storePicked group key pick (n + 1) rest

/-- Store words at logical addresses, in order (20_memory.md R111). If one faults, each other word that does not
fault may or may not be stored: a free choice (93_implementation_defined.md U9, entry 16). -/
def State.storeWords (s : State) (group : BitVec 4) (key : Option (BitVec 4)) (ws : List (Word × Word)) : Stored :=
  match s.firstFault group key ws with
  | none => .done (s.storePicked group key (fun _ => true) 0 ws)
  | some (f, _) => .faulted f ((s.storePicked group key s.freeBit 0 ws).spend ws.length)

/-- `MemWrite` of words by an instruction, then the rest of its rule (20_memory.md R111). -/
def State.store (s : State) (ws : List (Word × Word)) (k : State → Out) : Out :=
  if groupImplemented s.cfg s.as then
    match s.storeWords s.as (some s.ps) ws with
    | .done t => k t
    | .faulted f t => .next (t.raise f)
  else .refused .unimplementedGroup

/-- The words of a double word at `la` (R105). -/
def words2 (la : Word) (v : Long) : List (Word × Word) := [(la, Long.hi v), (la + 1, Long.lo v)]

/-- The words of a 48-bit quantity at `la` (R105). -/
def words3 (la : Word) (v : Ext) : List (Word × Word) := [(la, Ext.w0 v), (la + 1, Ext.w1 v), (la + 2, Ext.w2 v)]

/-! ### Entering an interrupt and returning from one (60_exceptions.md R816, 43_jump_branch.md R405, R408) -/

/-- The linkage pointer's address for interrupt `n` (60_exceptions.md R810). -/
def linkageAddress (n : BitVec 4) : Word := 0x0020#16 + 2 * n.zeroExtend 16

/-- The service pointer's address for interrupt `n` (R810). -/
def serviceAddress (n : BitVec 4) : Word := 0x0021#16 + 2 * n.zeroExtend 16

/-- The new state of the computer that the vector of an interrupt names. -/
structure Vectored where
  mask : Word
  sw : Word
  ic : Word
  linkage : Word
deriving DecidableEq, Repr

/-- A vector reference, then the rest of the sequence in the state it leaves, or its fault. -/
def State.vectorThen (s : State) (la : Word) (k : Word → State → Stored) : Stored :=
  match s.vectorRead la with
  | .error f => .faulted f s.turn
  | .ok v => k v s.turn

/-- The reads of the sequence, in its order: SVP, new MK, new SW, new IC at `SVP + 2 + entry`, LP (R816, R408). -/
def State.readVector (s : State) (n : BitVec 4) (entry : BitVec 4) (k : Vectored → State → Stored) : Stored :=
  s.vectorThen (serviceAddress n) fun svp s =>
    s.vectorThen svp fun mask s =>
      s.vectorThen (svp + 1) fun sw s =>
        s.vectorThen (svp + 2 + entry.zeroExtend 16) fun ic s =>
          s.vectorThen (linkageAddress n) fun lp s => k ⟨mask, sw, ic, lp⟩ s

/-- The requesting channels once a sequence has begun: the one that IOIC shows is served, unless IOIC is still held. -/
def servedRequests (held begins : Bool) (shown : BitVec 7) (requests : List (BitVec 7)) : List (BitVec 7) :=
  if begins && !held then requests.erase shown else requests

/-- An I/O interrupt's sequence has begun: its IOIC is held until read (10_state.md R53, 60_exceptions.md R846, entry
38). -/
def State.holdIoic (s : State) (n : BitVec 4) : State :=
  let begins1 := s.cfg.hasIoic && n == s.cfg.intIo1
  let begins2 := s.cfg.hasIoic && n == s.cfg.intIo2
  { s with dev := { s.dev with
      ioicHold1 := s.dev.ioicHold1 || begins1
      ioicHold2 := s.dev.ioicHold2 || begins2
      ioicRequests1 := servedRequests s.dev.ioicHold1 begins1 s.dev.ioic1 s.dev.ioicRequests1
      ioicRequests2 := servedRequests s.dev.ioicHold2 begins2 s.dev.ioic2 s.dev.ioicRequests2 } }

/-- The requesting channel of highest priority (R53, entry 42). -/
def highestChannel : List (BitVec 7) → Option (BitVec 7)
  | [] => none
  | c :: rest =>
    match highestChannel rest with
    | none => some c
    | some d => if Config.channelRank c < Config.channelRank d then some d else some c

/-- What an IOIC that is not held shows: the requesting channel of highest priority, or what it showed where none
requests. -/
def shownChannel (requests : List (BitVec 7)) (shown : BitVec 7) : BitVec 7 := (highestChannel requests).getD shown

/-- TAKING AN INTERRUPT: the recognition sequence of interrupt `n` with the old IC `oldIc` (R816); BEX is interrupt 5
with an entry number (R408). A fault in it leaves MK, SW, IC, PI and the enable latch as they were; an AS of the new
SW that names no group faults before the linkage writes (R817). -/
def State.enterInterrupt (s : State) (n : BitVec 4) (entry : BitVec 4) (oldIc : Word) : Stored :=
  (s.holdIoic n).readVector n entry fun v s =>
    if asLegal s.cfg (asOf v.sw) then
      match s.storeWords (asOf v.sw) none [(v.linkage, s.mask), (v.linkage + 1, s.sw), (v.linkage + 2, oldIc)] with
      | .faulted f t => .faulted f t
      | .done t =>
        .done ({ t with
          mask := v.mask
          pi := t.pi &&& ~~~bitMask n
          ien := false
          enblPending := false }.writeSw v.sw |>.setIc v.ic)
    else .faulted addressStateFault s

/-- RETURNING FROM AN INTERRUPT: load MK, SW and IC from three words (43_jump_branch.md R405). An AS that names no
group raises the address state fault once SW is written (D13, entry 24). -/
def State.loadStatus (s : State) (t : Ext) : State :=
  let s := { s with mask := Ext.w0 t }.writeSw (Ext.w1 t)
  if asLegal s.cfg (asOf (Ext.w1 t)) then s.setIc (Ext.w2 t) else s.raise addressStateFault

end Sys2Proof.Machine
end

