-- ==== Sys2Proof/Machine/Boundary.lean ====
section
/-! DEFINITION. What happens between two instructions: the events of the outside (70_reset_and_hazards.md R892), the
delayed effect of ENBL (60_exceptions.md R822) and the recognition of interrupts (R815). -/

namespace Sys2Proof.Machine

/-! ### Events -/

/-- A count of timer A (60_exceptions.md R841). -/
def State.tickA (s : State) : State :=
  if s.cfg.hasTimers && s.dev.taRun then
    { s with dev := { s.dev with ta := s.dev.ta + 1 } }.requestIf (s.dev.ta + 1 == 0#16) s.cfg.intTimerA
  else s

/-- A count of timer B (R841). -/
def State.tickB (s : State) : State :=
  if s.cfg.hasTimers && s.dev.tbRun then
    { s with dev := { s.dev with tb := s.dev.tb + 1 } }.requestIf (s.dev.tb + 1 == 0#16) s.cfg.intTimerB
  else s

/-- A count of the Go counter: the output goes low at the time-out (40_io.md R268, entry 28). -/
def State.tickGo (s : State) : State :=
  if s.cfg.hasGo then
    { s with dev := { s.dev with
        goCount := s.dev.goCount + 1
        goHigh := s.dev.goHigh && decide (s.dev.goCount + 1 < s.cfg.goTimeout) } }
  else s

/-- The interrupt numbers a system interrupt signal can set: 0, 2, 8, 10 to 15 (70_reset_and_hazards.md R892); the I/O
levels have `State.channelRequest`. -/
def externalInterrupt (n : BitVec 4) : Bool := n == 0#4 || n == 2#4 || n == 8#4 || decide (10#4 ≤ n)

/-- An I/O channel requests an interrupt: it is among the requesting channels, and unless IOIC is held, IOIC shows the one
of highest priority (10_state.md R53, 60_exceptions.md R846). A channel requests until its sequence begins; which
priority a channel has is any. DESIGN CHOICE, entry 42. -/
def State.channelRequest (s : State) (level : IoLevel) (number : BitVec 7) : State :=
  match level with
  | .level1 =>
    let requests := s.dev.ioicRequests1.insert number
    let dev := { s.dev with
      ioicRequests1 := requests
      ioic1 := if s.dev.ioicHold1 then s.dev.ioic1 else shownChannel requests s.dev.ioic1 }
    { s with dev := if s.cfg.hasIoic then dev else s.dev }.request s.cfg.intIo1
  | .level2 =>
    let requests := s.dev.ioicRequests2.insert number
    let dev := { s.dev with
      ioicRequests2 := requests
      ioic2 := if s.dev.ioicHold2 then s.dev.ioic2 else shownChannel requests s.dev.ioic2 }
    { s with dev := if s.cfg.hasIoic then dev else s.dev }.request s.cfg.intIo2

/-- The fault a signal of the outside raises (60_exceptions.md R800). -/
def FaultSignal.request : FaultSignal → FaultReq
  | .parity la instruction as => ⟨.parity, some (designatorsOf la instruction as)⟩
  | .pioParity => ⟨.pioParity, none⟩
  | .dmaParity => ⟨.dmaParity, none⟩
  | .pioTransmission => ⟨.pioTransmission, none⟩
  | .spare7 => ⟨.spare7, none⟩
  | .bite => ⟨.bite, none⟩
  | .spareBite14 => ⟨.spareBite14, none⟩
  | .spareBite15 => ⟨.spareBite15, none⟩

/-- A parity signal exists only where memory has parity (60_exceptions.md R800). -/
def FaultSignal.exists (c : Config) : FaultSignal → Bool
  | .parity _ _ _ => c.hasParity
  | _ => true

/-- One event of the outside (70_reset_and_hazards.md R892). -/
def State.applyEvent (s : State) : Event → State
  | .tickA => s.tickA
  | .tickB => s.tickB
  | .goTick => s.tickGo
  | .interrupt n => s.requestIf (externalInterrupt n) n
  | .channel level number => s.channelRequest level number
  | .fault f => if f.exists s.cfg then s.setFault f.request else s
  | .dma r => s.dmaReference r
  | .badParity words => { s with ctl := { s.ctl with badParity := words } }
  | .discretes w => { s with dev := { s.dev with din := w } }
  | .consoleByte b =>
    if s.cfg.hasConsole && s.cfg.consoleConnected then
      { s with dev := { s.dev with consoleIn := s.dev.consoleIn ++ [b] } }
    else s
  | .consoleTake => { s with dev := { s.dev with consoleOut := [] } }
  | .consoleStatus w => { s with dev := { s.dev with consoleStatus := w } }

/-- Events in their order. -/
def State.applyEvents (s : State) : List Event → State
  | [] => s
  | e :: rest => (s.applyEvent e).applyEvents rest

/-- The events that the schedule puts at this point: after an instruction, a word transfer of MOV or an interrupt sequence
(92_eei_decisions.md D21, 00_scope.md R6). -/
def State.runEvents (s : State) : State :=
  match s.schedule with
  | [] => s
  | es :: rest => { s with schedule := rest }.applyEvents es

/-! ### The delayed effect of ENBL (60_exceptions.md R822) -/

/-- `was` is `ENBL_PENDING` as sampled before the instruction. -/
def State.endEnable (s : State) (was : Bool) : State :=
  if was && s.enblPending then { s with ien := true, enblPending := false } else s

/-! ### Recognition (60_exceptions.md R815) -/

/-- `allowed(n)`: 0 and 5 always, 1 if unmasked, the others if unmasked and enabled. -/
def State.allowed (s : State) (n : BitVec 4) : Bool :=
  n == 0#4 || n == 5#4 || (stdBit s.mask n && (n == 1#4 || s.ien))

/-- Interrupt `n` would be taken: pending, not held back by SPI (R824), and allowed. -/
def State.candidate (s : State) (n : BitVec 4) : Bool :=
  stdBit s.pi n && !stdBit (heldBits s.spiHold) n && s.allowed n

/-- The sixteen interrupts, the highest priority first (D12). -/
def interruptNumbers : List (BitVec 4) := [0, 1, 2, 3, 4, 5, 6, 7, 8, 9, 10, 11, 12, 13, 14, 15]

/-- The interrupt to take: the lowest numbered candidate. -/
def State.nextInterrupt (s : State) : Option (BitVec 4) := interruptNumbers.find? s.candidate

/-- Take interrupts until none is a candidate (R815). Each sequence is a unit of its own: the outside may act before the
evaluation that follows it (00_scope.md R6, 60_exceptions.md R812). A fault in a sequence is raised (R816); if the same
interrupt is then the next one again, the boundary ends there (entry 19). -/
def State.recognize : Nat → State → State
  | 0, s => s
  | fuel + 1, s =>
    match s.nextInterrupt with
    | none => s
    | some n =>
      match s.enterInterrupt n 0 s.ic with
      | .done t => State.recognize fuel t.runEvents
      | .faulted f t =>
        let u := (t.raise f).runEvents
        if u.nextInterrupt = some n then u else State.recognize fuel u

/-- The IC at which the program goes on after an interrupt taken now: at the MOV itself after its last word, else IC
(45_store.md R496). -/
def State.interruptPoint (s : State) : State :=
  match s.nextInterrupt with
  | none => s
  | some _ => s.setIc (s.resumeIc.getD s.ic)

/-- The end of a step: events, the end of an ENBL delay, recognition unless halted, and one instruction less
of the SPI delays. Sequences that do not fault are at most one for each PI bit and each entry of the schedule. -/
def State.boundary (s : State) (was : Bool) : State :=
  let s := s.runEvents.endEnable was
  let s := if s.halted then s else State.recognize (16 + s.schedule.length) s.interruptPoint
  { s with spiHold := s.spiHold.tail, resumeIc := none }

/-- An outcome of an instruction, with its boundary. -/
def finishStep (was : Bool) : Out → Out
  | .next s => .next (s.boundary was)
  | .fault r => .fault r
  | .refused r => .refused r

end Sys2Proof.Machine
end

