-- ==== Sys2Proof/Machine/Operands.lean ====
section
/-! DEFINITION. The addressing modes (30_encoding.md R175 to R188): derived addresses, derived operands, and the
passing of an operand, or of the fault of its reference, to the rest of a rule. -/

namespace Sys2Proof.Machine

/-- The index of a long or BX instruction: RX = 0 means none (10_state.md R31a). -/
def State.idx (s : State) (rx : Reg) : Word := if rx = 0#4 then 0#16 else s.reg rx

/-- Modes D and DX: `ADDR + idx` (R176, R177); also the immediate operand of IM and IMX (R180). -/
def State.daLong (s : State) (addr : Word) (rx : Reg) : Word := addr + s.idx rx

/-- Mode B: base register plus unsigned displacement (R184). -/
def State.daBase (s : State) (br : Reg) (dspl : BitVec 8) : Word := s.reg br + dspl.zeroExtend 16

/-- Mode BX: base register plus index (R185). -/
def State.daIndexed (s : State) (br rx : Reg) : Word := s.reg br + s.idx rx

/-- Mode ICR: the address of the instruction plus the signed displacement (R183). -/
def State.daRelative (s : State) (d : BitVec 8) : Word := s.ic + d.signExtend 16

/-- Mode ISP: the positive operand 1 to 16 (R181). -/
def shortPositive (n : Nat) : Word := BitVec.ofNat 16 n

/-- Mode ISN: the negative operand -1 to -16 (R182). -/
def shortNegative (n : Nat) : Word := 0#16 - BitVec.ofNat 16 n

/-- The accumulator of single precision B and BX forms (R187). -/
def accSingle : Reg := 2

/-- The accumulator of double precision and floating B and BX forms (R187). -/
def accDouble : Reg := 0

/-- Modes I and IX: the word at `ADDR + idx`, an operand reference, then the rest of the rule (R178, R179). -/
def State.pointerThen (s : State) (addr : Word) (rx : Reg) (k : Word → State → Out) : Out :=
  s.readThen (s.daLong addr rx) k

/-- Modes I and IX: the word the pointer addresses. -/
def State.indirectThen (s : State) (addr : Word) (rx : Reg) (k : Word → State → Out) : Out :=
  s.pointerThen addr rx fun da s => s.readThen da k

/-- Modes I and IX: the double word the pointer addresses. -/
def State.indirectThen2 (s : State) (addr : Word) (rx : Reg) (k : Long → State → Out) : Out :=
  s.pointerThen addr rx fun da s => s.readThen2 da k

/-- The end of a rule that writes one register and CS: `x[ra] <- v; CS <- cs; IC <- pc + len`. -/
def State.finish (s : State) (ra : Reg) (v : Word) (cs : BitVec 4) (len : Word) : State :=
  ((s.setReg ra v).setCs cs).advance len

/-- The same for a register pair. -/
def State.finish2 (s : State) (ra : Reg) (v : Long) (cs : BitVec 4) (len : Word) : State :=
  ((s.setPair ra v).setCs cs).advance len

/-- The same for three registers. -/
def State.finish3 (s : State) (ra : Reg) (v : Ext) (cs : BitVec 4) (len : Word) : State :=
  ((s.setTriple ra v).setCs cs).advance len

/-- The end of a rule that writes only CS. -/
def State.finishCs (s : State) (cs : BitVec 4) (len : Word) : State := (s.setCs cs).advance len

end Sys2Proof.Machine
end

