-- ==== Sys2Proof/Machine/AddSub.lean ====
section
/-! DEFINITION. Integer add, subtract, increment, decrement, absolute value, negate (46_int_addsub.md R530 to R575). -/

namespace Sys2Proof.Machine

/-- The end of an addition or subtraction on RA: result, fixed point overflow, CS with carry (R535, R552). -/
def State.sumTo (s : State) (ra : Reg) (r : Sum 16) (len : Word) : State :=
  (s.requestIf r.overflow intFixedOverflow).finish ra r.value (cpzn r.carry r.value) len

/-- The same on a register pair (R548, R565). -/
def State.sumTo2 (s : State) (ra : Reg) (r : Sum 32) (len : Word) : State :=
  (s.requestIf r.overflow intFixedOverflow).finish2 ra r.value (cpzn r.carry r.value) len

/-- `RA + DO` (R535). -/
def State.addTo (s : State) (ra : Reg) (v len : Word) : State := s.sumTo ra (addFlags (s.reg ra) v) len

/-- `RA - DO` (R552). -/
def State.subFrom (s : State) (ra : Reg) (v len : Word) : State := s.sumTo ra (subFlags (s.reg ra) v) len

/-- `(RA, RA+1) + DO` (R548). -/
def State.addTo2 (s : State) (ra : Reg) (v : Long) (len : Word) : State := s.sumTo2 ra (addFlags (s.pair ra) v) len

/-- `(RA, RA+1) - DO` (R565). -/
def State.subFrom2 (s : State) (ra : Reg) (v : Long) (len : Word) : State :=
  s.sumTo2 ra (subFlags (s.pair ra) v) len

/-- Replace the word at `da` by a sum with it: memory, fixed point overflow, CS with carry (R543, R560). -/
def State.sumMemory (s : State) (f : Word → Sum 16) (da : Word) : Out :=
  s.readThen da fun w s =>
    s.store [(da, (f w).value)] fun t =>
      .next ((t.requestIf (f w).overflow intFixedOverflow).finishCs (cpzn (f w).carry (f w).value) 2)

/-- AR (46_int_addsub.md R536). -/
def execAr (ra : Reg) (rb : Reg) (s : State) : Out :=
  .next (s.addTo ra (s.reg rb) 1)

/-- AB (46_int_addsub.md R537). -/
def execAb (br : Reg) (dspl : BitVec 8) (s : State) : Out :=
  s.readThen (s.daBase br dspl) fun v s => .next (s.addTo accSingle v 1)

/-- ABX (46_int_addsub.md R538). -/
def execAbx (br : Reg) (rx : Reg) (s : State) : Out :=
  s.readThen (s.daIndexed br rx) fun v s => .next (s.addTo accSingle v 1)

/-- AISP (46_int_addsub.md R539). -/
def execAisp (ra : Reg) (n : Nat) (s : State) : Out :=
  .next (s.addTo ra (shortPositive n) 1)

/-- A (46_int_addsub.md R540). -/
def execA (ra : Reg) (rx : Reg) (addr : Word) (s : State) : Out :=
  s.readThen (s.daLong addr rx) fun v s => .next (s.addTo ra v 2)

/-- AIM (46_int_addsub.md R541). -/
def execAim (ra : Reg) (data : Word) (s : State) : Out :=
  .next (s.addTo ra data 2)

/-- INCM (46_int_addsub.md R543). -/
def execIncm (n : Nat) (rx : Reg) (addr : Word) (s : State) : Out :=
  s.sumMemory (fun w => addFlags w (shortPositive n)) (s.daLong addr rx)

/-- Negate where `b` holds: fixed point overflow for the most negative number, CS from the result (R545, R562). -/
def State.negateTo (s : State) (ra : Reg) (b : Bool) (d : Word) : State :=
  let r := if b then 0 - d else d
  (s.requestIf (d == 0x8000#16) intFixedOverflow).finish ra r (pzn r) 1

/-- The same on a register pair (R546, R563). -/
def State.negateTo2 (s : State) (ra : Reg) (b : Bool) (d : Long) : State :=
  let r := if b then 0 - d else d
  (s.requestIf (d == 0x80000000#32) intFixedOverflow).finish2 ra r (pzn r) 1

/-- ABS (46_int_addsub.md R545). -/
def execAbs (ra : Reg) (rb : Reg) (s : State) : Out :=
  .next (s.negateTo ra (s.reg rb).msb (s.reg rb))

/-- DABS (46_int_addsub.md R546). -/
def execDabs (ra : Reg) (rb : Reg) (s : State) : Out :=
  .next (s.negateTo2 ra (s.pair rb).msb (s.pair rb))

/-- DAR (46_int_addsub.md R549). -/
def execDar (ra : Reg) (rb : Reg) (s : State) : Out :=
  .next (s.addTo2 ra (s.pair rb) 1)

/-- DA (46_int_addsub.md R550). -/
def execDa (ra : Reg) (rx : Reg) (addr : Word) (s : State) : Out :=
  s.readThen2 (s.daLong addr rx) fun v s => .next (s.addTo2 ra v 2)

/-- SR (46_int_addsub.md R553). -/
def execSr (ra : Reg) (rb : Reg) (s : State) : Out :=
  .next (s.subFrom ra (s.reg rb) 1)

/-- SBB (46_int_addsub.md R554). -/
def execSbb (br : Reg) (dspl : BitVec 8) (s : State) : Out :=
  s.readThen (s.daBase br dspl) fun v s => .next (s.subFrom accSingle v 1)

/-- SBBX (46_int_addsub.md R555). -/
def execSbbx (br : Reg) (rx : Reg) (s : State) : Out :=
  s.readThen (s.daIndexed br rx) fun v s => .next (s.subFrom accSingle v 1)

/-- SISP (46_int_addsub.md R556). -/
def execSisp (ra : Reg) (n : Nat) (s : State) : Out :=
  .next (s.subFrom ra (shortPositive n) 1)

/-- S (46_int_addsub.md R557). -/
def execS (ra : Reg) (rx : Reg) (addr : Word) (s : State) : Out :=
  s.readThen (s.daLong addr rx) fun v s => .next (s.subFrom ra v 2)

/-- SIM (46_int_addsub.md R558). -/
def execSim (ra : Reg) (data : Word) (s : State) : Out :=
  .next (s.subFrom ra data 2)

/-- DECM (46_int_addsub.md R560). -/
def execDecm (n : Nat) (rx : Reg) (addr : Word) (s : State) : Out :=
  s.sumMemory (fun w => subFlags w (shortPositive n)) (s.daLong addr rx)

/-- NEG (46_int_addsub.md R562). -/
def execNeg (ra : Reg) (rb : Reg) (s : State) : Out :=
  .next (s.negateTo ra true (s.reg rb))

/-- DNEG (46_int_addsub.md R563). -/
def execDneg (ra : Reg) (rb : Reg) (s : State) : Out :=
  .next (s.negateTo2 ra true (s.pair rb))

/-- DSR (46_int_addsub.md R566). -/
def execDsr (ra : Reg) (rb : Reg) (s : State) : Out :=
  .next (s.subFrom2 ra (s.pair rb) 1)

/-- DS (46_int_addsub.md R567). -/
def execDs (ra : Reg) (rx : Reg) (addr : Word) (s : State) : Out :=
  s.readThen2 (s.daLong addr rx) fun v s => .next (s.subFrom2 ra v 2)

end Sys2Proof.Machine
end

