-- ==== Sys2Proof/Machine/Bit.lean ====
section
/-! DEFINITION. Bit instructions (41_bit.md R320 to R340). -/

namespace Sys2Proof.Machine

/-- `DO<n> <- 1` (R320). -/
def setBit (n : BitVec 4) (w : Word) : Word := w ||| bitMask n

/-- `DO<n> <- 0` (R325). -/
def resetBit (n : BitVec 4) (w : Word) : Word := w &&& ~~~bitMask n

/-- The bit number a variable form takes from RA, its low four bits (R337). -/
def State.bitNumber (s : State) (ra : Reg) : BitVec 4 := (s.reg ra).extractLsb' 0 4

/-- Read the word at `da` and write it back changed, then `IC <- pc + 2` (R322, R327). -/
def State.modifyWord (s : State) (f : Word → Word) (da : Word) : Out :=
  s.readThen da fun w s => s.store [(da, f w)] fun t => .next (t.advance 2)

/-- SBR (41_bit.md R321). -/
def execSbr (n : BitVec 4) (rb : Reg) (s : State) : Out :=
  .next ((s.setReg rb (setBit n (s.reg rb))).advance 1)

/-- SB (41_bit.md R322). -/
def execSb (n : BitVec 4) (rx : Reg) (addr : Word) (s : State) : Out :=
  s.modifyWord (setBit n) (s.daLong addr rx)

/-- SBI (41_bit.md R323). -/
def execSbi (n : BitVec 4) (rx : Reg) (addr : Word) (s : State) : Out :=
  s.pointerThen addr rx fun da s => s.modifyWord (setBit n) da

/-- RBR (41_bit.md R326). -/
def execRbr (n : BitVec 4) (rb : Reg) (s : State) : Out :=
  .next ((s.setReg rb (resetBit n (s.reg rb))).advance 1)

/-- RB (41_bit.md R327). -/
def execRb (n : BitVec 4) (rx : Reg) (addr : Word) (s : State) : Out :=
  s.modifyWord (resetBit n) (s.daLong addr rx)

/-- RBI (41_bit.md R328). -/
def execRbi (n : BitVec 4) (rx : Reg) (addr : Word) (s : State) : Out :=
  s.pointerThen addr rx fun da s => s.modifyWord (resetBit n) da

/-- TBR (41_bit.md R331). -/
def execTbr (n : BitVec 4) (rb : Reg) (s : State) : Out :=
  .next (s.finishCs (testBitCs n (stdBit (s.reg rb) n)) 1)

/-- TB (41_bit.md R332). -/
def execTb (n : BitVec 4) (rx : Reg) (addr : Word) (s : State) : Out :=
  s.readThen (s.daLong addr rx) fun w s => .next (s.finishCs (testBitCs n (stdBit w n)) 2)

/-- TBI (41_bit.md R333). -/
def execTbi (n : BitVec 4) (rx : Reg) (addr : Word) (s : State) : Out :=
  s.indirectThen addr rx fun w s => .next (s.finishCs (testBitCs n (stdBit w n)) 2)

/-- TSB: the read and the write are one indivisible reference, no DMA comes between them (41_bit.md R335). If a protection
check refuses the write, CS is written or not: a free choice (93_implementation_defined.md U9, entry 17); at any other
fault of the write it is not (60_exceptions.md R806). -/
def execTsb (n : BitVec 4) (rx : Reg) (addr : Word) (s : State) : Out :=
  s.readThen (s.daLong addr rx) fun w s =>
    let cs := testBitCs n (stdBit w n)
    match s.translate .cpu .write s.as (some s.ps) (s.daLong addr rx) with
    | .ok pa => .next ((s.physWrite pa (setBit n w)).finishCs cs 2)
    | .error f =>
      if f.bit = .cpuProtect then .next (((if s.freeBit 0 then s.setCs cs else s).spend 1).raise f) else .next (s.raise f)

/-- SVBR (41_bit.md R337). -/
def execSvbr (ra rb : Reg) (s : State) : Out :=
  .next ((s.setReg rb (setBit (s.bitNumber ra) (s.reg rb))).advance 1)

/-- RVBR (41_bit.md R338). -/
def execRvbr (ra rb : Reg) (s : State) : Out :=
  .next ((s.setReg rb (resetBit (s.bitNumber ra) (s.reg rb))).advance 1)

/-- TVBR (41_bit.md R339). -/
def execTvbr (ra rb : Reg) (s : State) : Out :=
  .next (s.finishCs (testBitCs (s.bitNumber ra) (stdBit (s.reg rb) (s.bitNumber ra))) 1)

end Sys2Proof.Machine
end

