-- ==== Sys2Proof/Machine/FloatOps.lean ====
section
/-! DEFINITION. The floating point algorithms (48_float.md R650 to R700), on integer mantissas and exponents, and the
writing of their results. `w` is the mantissa width W, 24 or 40. -/

namespace Sys2Proof.Machine

/-- Mantissa and exponent as integers: the value is `m / 2^(w - 1) * 2^e` (R650). -/
structure Unpacked where
  m : Int
  e : Int
deriving DecidableEq, Repr, Inhabited

/-- `unpack_24` (R650). -/
def unpack24 (v : Long) : Unpacked := ⟨(v.extractLsb' 8 24).toInt, (v.extractLsb' 0 8).toInt⟩

/-- `unpack_40` (R650). -/
def unpack40 (v : Ext) : Unpacked :=
  ⟨(v.extractLsb' 24 24 ++ v.extractLsb' 0 16 : BitVec (24 + 16)).toInt, (v.extractLsb' 16 8).toInt⟩

/-- `pack_24` (R650). -/
def pack24 (u : Unpacked) : Long := (BitVec.ofInt 24 u.m ++ BitVec.ofInt 8 u.e : BitVec (24 + 8))

/-- `pack_40` (R650). -/
def pack40 (u : Unpacked) : Ext :=
  ((BitVec.ofInt 40 u.m).extractLsb' 16 24 ++ BitVec.ofInt 8 u.e ++ (BitVec.ofInt 40 u.m).extractLsb' 0 16 :
    BitVec (24 + 8 + 16))

/-- What a floating point algorithm yields: the number and the conditions it requests (R652). -/
structure FloatResult where
  value : Unpacked
  overflow : Bool
  underflow : Bool
deriving DecidableEq, Repr, Inhabited

/-- A result with no exceptional condition. -/
def FloatResult.plain (u : Unpacked) : FloatResult := ⟨u, false, false⟩

/-- `fovf_W` (R652). -/
def floatOverflow (w : Nat) (negative : Bool) : FloatResult :=
  ⟨⟨if negative then -2 ^ (w - 1) else 2 ^ (w - 1) - 1, 127⟩, true, false⟩

/-- `funf_W` (R652). -/
def floatUnderflow : FloatResult := ⟨⟨0, 0⟩, false, true⟩

/-- The sign bit equals the next bit: the mantissa has room for a left shift (R651). -/
def shiftable (w : Nat) (m : Int) : Bool := decide (-2 ^ (w - 2) ≤ m ∧ m < 2 ^ (w - 2))

/-- The normalizing loop of R651, at most `fuel` shifts. -/
def normalizeLoop (w : Nat) : Nat → Int → Int → Unpacked
  | 0, m, e => ⟨m, e⟩
  | fuel + 1, m, e => if shiftable w m then normalizeLoop w fuel (2 * m) (e - 1) else ⟨m, e⟩

/-- `fnorm_W` (R651): the loop ends after at most `w - 2` shifts. -/
def fnorm (w : Nat) (m e : Int) : Unpacked := if m = 0 then ⟨0, 0⟩ else normalizeLoop w w m e

/-- The operand is normalized or has a zero mantissa (R654, R685; 93_implementation_defined.md U6, entry 12). -/
def usable (w : Nat) (u : Unpacked) : Bool := decide (u.m = 0) || !shiftable w u.m

/-- `sra(m, k)`: floor of `m / 2^k` (R655). -/
def sra (m k : Int) : Int := m / 2 ^ k.toNat

/-- `faddsub_W` (R655); `op` is the addition or the subtraction of mantissas. -/
def faddsub (w : Nat) (op : Int → Int → Int) (a o : Unpacked) : FloatResult :=
  let n := a.e - o.e
  let mo := if 0 < n ∧ a.m ≠ 0 then sra o.m n else o.m
  let ma := if n < 0 ∧ o.m ≠ 0 then sra a.m (-n) else a.m
  let e := if a.m = 0 ∨ (n < 0 ∧ o.m ≠ 0) then o.e else a.e
  let sum := op ma mo
  if outOfRange w sum then
    if 127 < e + 1 then floatOverflow w (decide (sum < 0))
    else
      let r := fnorm w (sum / 2) (e + 1)
      if r.e < -128 then floatUnderflow else .plain r
  else
    let r := fnorm w sum e
    if r.e < -128 then floatUnderflow else .plain r

/-- Floating point add (R655). -/
def fadd (w : Nat) (a o : Unpacked) : FloatResult := faddsub w (fun x y => x + y) a o

/-- Floating point subtract (R655). -/
def fsub (w : Nat) (a o : Unpacked) : FloatResult := faddsub w (fun x y => x - y) a o

/-- `fmul_W` (R676). The product is normalized on `2 * w` bits; only a product that is not 0 reaches the loop. -/
def fmul (w : Nat) (a o : Unpacked) : FloatResult :=
  if a.m = 0 ∨ o.m = 0 then .plain ⟨0, 0⟩
  else
    let p := a.m * o.m
    let r := normalizeLoop (2 * w) (2 * w) p (a.e + o.e + 1)
    if 127 < r.e then floatOverflow w (decide (p < 0))
    else if r.e < -128 then floatUnderflow
    else .plain ⟨r.m / 2 ^ w, r.e⟩

/-- `fdiv_W` (R685, D28), the exact quotient held as `num / den` with `den` positive. -/
def fdiv (w : Nat) (a o : Unpacked) : FloatResult :=
  let n := if a.m = 0 then 0 else a.e - o.e
  if 127 < n ∨ o.m = 0 then floatOverflow w (decide (a.m < 0) != decide (o.m < 0))
  else if n < -128 then floatUnderflow
  else
    let num := if o.m < 0 then -a.m else a.m
    let den := if o.m < 0 then -o.m else o.m
    let big : Bool := decide (den ≤ num ∨ num < -den)
    let n' := if big then n + 1 else n
    let den' := if big then 2 * den else den
    if 127 < n' then floatOverflow w (decide (num < 0))
    else
      let r := fnorm w (num * 2 ^ (w - 1) / den') n'
      if r.e < -128 then floatUnderflow else .plain r

/-- The operations whose numeric function is the parameter `FP` (00_scope.md R5, 93_implementation_defined.md U7). -/
inductive FloatOp where
  | add
  | sub
  | mul
  | div
deriving DecidableEq, Repr

/-- The algorithm of an operation (R655, R676, R685). -/
def FloatOp.algorithm (w : Nat) : FloatOp → Unpacked → Unpacked → FloatResult
  | .add => fadd w
  | .sub => fsub w
  | .mul => fmul w
  | .div => fdiv w

/-- The numeric functions of an implementation that follows other algorithms (U7). DESIGN CHOICE, entry 13. -/
opaque Config.floatFunction : FloatOp → Nat → Unpacked → Unpacked → FloatResult

/-- `FP`: what an operation yields on this machine. -/
def arithmetic (c : Config) (op : FloatOp) (w : Nat) : Unpacked → Unpacked → FloatResult :=
  match c.fp with
  | .registerTransfer => op.algorithm w
  | .implementation => Config.floatFunction op w

/-- The floating point absolute value (R672). -/
def fabsolute (o : Unpacked) : FloatResult :=
  if o.m = -2 ^ 23 then
    if 127 < o.e + 1 then floatOverflow 24 false else .plain ⟨2 ^ 22, o.e + 1⟩
  else if o.m < 0 then .plain ⟨-o.m, o.e⟩
  else .plain o

/-- The floating point negative (R673). -/
def fnegative (o : Unpacked) : FloatResult :=
  if o = ⟨-2 ^ 23, 127⟩ then floatOverflow 24 false
  else if o = ⟨2 ^ 22, -128⟩ then floatUnderflow
  else if o.m = -2 ^ 23 then .plain ⟨2 ^ 22, o.e + 1⟩
  else if o.m = 2 ^ 22 then .plain ⟨-2 ^ 23, o.e - 1⟩
  else .plain ⟨-o.m, o.e⟩

/-- The integer portion, truncated toward zero, of a number whose exponent does not exceed `w - 1` (R694, R696). -/
def truncate (w : Nat) (o : Unpacked) : Int := Int.tdiv o.m (2 ^ ((w : Int) - 1 - o.e).toNat)

/-- `fcmp_W` (R700): the exact values, scaled by `2^128` to integers. -/
def fcompare (a o : Unpacked) : BitVec 4 :=
  compareCs (a.m * 2 ^ (a.e + 128).toNat) (o.m * 2 ^ (o.e + 128).toNat)

/-! ### Writing results (R652, R653) -/

/-- The pending bits of a result. -/
def State.requestFloat (s : State) (r : FloatResult) : State :=
  (s.requestIf r.overflow intFloatOverflow).requestIf r.underflow intFloatUnderflow

/-- `fstore_24`, then `IC <- pc + len`. -/
def State.storeFloat (s : State) (ra : Reg) (r : FloatResult) (len : Word) : State :=
  (s.requestFloat r).finish2 ra (pack24 r.value) (pzn (pack24 r.value)) len

/-- `fstore_40`, then `IC <- pc + len`. -/
def State.storeExtended (s : State) (ra : Reg) (r : FloatResult) (len : Word) : State :=
  (s.requestFloat r).finish3 ra (pack40 r.value) (pzn (pack40 r.value)) len

/-- The result of an operand that is neither normalized nor zero: any number, the conditions in `may` or not, CS from
the number (93_implementation_defined.md U6, entry 12). -/
def State.anyFloat (s : State) (ra : Reg) (mayUnderflow : Bool) (len : Word) : State :=
  let v := Long.ofWords (s.free 0) (s.free 1)
  (((s.requestIf (s.freeBit 2) intFloatOverflow).requestIf (mayUnderflow && s.freeBit 3) intFloatUnderflow).finish2
    ra v (pzn v) len).spend 4

/-- The same for an extended result. -/
def State.anyExtended (s : State) (ra : Reg) (len : Word) : State :=
  let v := Ext.ofWords (s.free 0) (s.free 1) (s.free 2)
  (((s.requestIf (s.freeBit 3) intFloatOverflow).requestIf (s.freeBit 4) intFloatUnderflow).finish3
    ra v (pzn v) len).spend 5

/-- A two operand floating point instruction on the accumulator `xx[ra]`. -/
def State.float (s : State) (op : FloatOp) (ra : Reg) (v : Long) (len : Word) : State :=
  if usable 24 (unpack24 (s.pair ra)) && usable 24 (unpack24 v) then
    s.storeFloat ra (arithmetic s.cfg op 24 (unpack24 (s.pair ra)) (unpack24 v)) len
  else s.anyFloat ra true len

/-- A two operand extended floating point instruction on the accumulator `xxx[ra]`. -/
def State.extended (s : State) (op : FloatOp) (ra : Reg) (v : Ext) (len : Word) : State :=
  if usable 40 (unpack40 (s.triple ra)) && usable 40 (unpack40 v) then
    s.storeExtended ra (arithmetic s.cfg op 40 (unpack40 (s.triple ra)) (unpack40 v)) len
  else s.anyExtended ra len

/-- A condition status of a compare that nothing fixes: one of the three (U6, entry 12). -/
def State.anyCompare (s : State) : BitVec 4 :=
  if s.freeBit 0 then 0b0010#4 else if s.freeBit 1 then 0b0001#4 else 0b0100#4

/-- A floating point compare of the accumulator `xx[ra]`. -/
def State.floatCompare (s : State) (ra : Reg) (v : Long) (len : Word) : State :=
  if usable 24 (unpack24 (s.pair ra)) && usable 24 (unpack24 v) then
    s.finishCs (fcompare (unpack24 (s.pair ra)) (unpack24 v)) len
  else (s.finishCs s.anyCompare len).spend 2

/-- An extended floating point compare of the accumulator `xxx[ra]`. -/
def State.extendedCompare (s : State) (ra : Reg) (v : Ext) (len : Word) : State :=
  if usable 40 (unpack40 (s.triple ra)) && usable 40 (unpack40 v) then
    s.finishCs (fcompare (unpack40 (s.triple ra)) (unpack40 v)) len
  else (s.finishCs s.anyCompare len).spend 2

end Sys2Proof.Machine
end

