-- ==== Sys2Proof/Machine/Float.lean ====
section
/-! DEFINITION. Floating point instructions (48_float.md R650 to R712). -/

namespace Sys2Proof.Machine

/-- FAR (48_float.md R656). -/
def execFar (ra : Reg) (rb : Reg) (s : State) : Out :=
  .next (s.float .add ra (s.pair rb) 1)

/-- FAB (48_float.md R657). -/
def execFab (br : Reg) (dspl : BitVec 8) (s : State) : Out :=
  s.readThen2 (s.daBase br dspl) fun v s => .next (s.float .add accDouble v 1)

/-- FABX (48_float.md R658). -/
def execFabx (br : Reg) (rx : Reg) (s : State) : Out :=
  s.readThen2 (s.daIndexed br rx) fun v s => .next (s.float .add accDouble v 1)

/-- FA (48_float.md R659). -/
def execFa (ra : Reg) (rx : Reg) (addr : Word) (s : State) : Out :=
  s.readThen2 (s.daLong addr rx) fun v s => .next (s.float .add ra v 2)

/-- EFAR (48_float.md R660). -/
def execEfar (ra : Reg) (rb : Reg) (s : State) : Out :=
  .next (s.extended .add ra (s.triple rb) 1)

/-- EFA (48_float.md R661). -/
def execEfa (ra : Reg) (rx : Reg) (addr : Word) (s : State) : Out :=
  s.readThen3 (s.daLong addr rx) fun v s => .next (s.extended .add ra v 2)

/-- FSR (48_float.md R664). -/
def execFsr (ra : Reg) (rb : Reg) (s : State) : Out :=
  .next (s.float .sub ra (s.pair rb) 1)

/-- FSB (48_float.md R665). -/
def execFsb (br : Reg) (dspl : BitVec 8) (s : State) : Out :=
  s.readThen2 (s.daBase br dspl) fun v s => .next (s.float .sub accDouble v 1)

/-- FSBX (48_float.md R666). -/
def execFsbx (br : Reg) (rx : Reg) (s : State) : Out :=
  s.readThen2 (s.daIndexed br rx) fun v s => .next (s.float .sub accDouble v 1)

/-- FS (48_float.md R667). -/
def execFs (ra : Reg) (rx : Reg) (addr : Word) (s : State) : Out :=
  s.readThen2 (s.daLong addr rx) fun v s => .next (s.float .sub ra v 2)

/-- EFSR (48_float.md R668). -/
def execEfsr (ra : Reg) (rb : Reg) (s : State) : Out :=
  .next (s.extended .sub ra (s.triple rb) 1)

/-- EFS (48_float.md R669). -/
def execEfs (ra : Reg) (rx : Reg) (addr : Word) (s : State) : Out :=
  s.readThen3 (s.daLong addr rx) fun v s => .next (s.extended .sub ra v 2)

/-- A one operand floating point instruction on the pair `xx[rb]`; an operand neither normalized nor zero gives any
number (R654, entry 12). -/
def State.floatUnary (s : State) (f : Unpacked → FloatResult) (mayUnderflow : Bool) (ra rb : Reg) : State :=
  if usable 24 (unpack24 (s.pair rb)) then s.storeFloat ra (f (unpack24 (s.pair rb))) 1
  else s.anyFloat ra mayUnderflow 1

/-- FABS (48_float.md R672). -/
def execFabs (ra : Reg) (rb : Reg) (s : State) : Out :=
  .next (s.floatUnary fabsolute false ra rb)

/-- FNEG (48_float.md R673). -/
def execFneg (ra : Reg) (rb : Reg) (s : State) : Out :=
  .next (s.floatUnary fnegative true ra rb)

/-- FMR (48_float.md R677). -/
def execFmr (ra : Reg) (rb : Reg) (s : State) : Out :=
  .next (s.float .mul ra (s.pair rb) 1)

/-- FMB (48_float.md R678). -/
def execFmb (br : Reg) (dspl : BitVec 8) (s : State) : Out :=
  s.readThen2 (s.daBase br dspl) fun v s => .next (s.float .mul accDouble v 1)

/-- FMBX (48_float.md R679). -/
def execFmbx (br : Reg) (rx : Reg) (s : State) : Out :=
  s.readThen2 (s.daIndexed br rx) fun v s => .next (s.float .mul accDouble v 1)

/-- FM (48_float.md R680). -/
def execFm (ra : Reg) (rx : Reg) (addr : Word) (s : State) : Out :=
  s.readThen2 (s.daLong addr rx) fun v s => .next (s.float .mul ra v 2)

/-- EFMR (48_float.md R681). -/
def execEfmr (ra : Reg) (rb : Reg) (s : State) : Out :=
  .next (s.extended .mul ra (s.triple rb) 1)

/-- EFM (48_float.md R682). -/
def execEfm (ra : Reg) (rx : Reg) (addr : Word) (s : State) : Out :=
  s.readThen3 (s.daLong addr rx) fun v s => .next (s.extended .mul ra v 2)

/-- FDR (48_float.md R686). -/
def execFdr (ra : Reg) (rb : Reg) (s : State) : Out :=
  .next (s.float .div ra (s.pair rb) 1)

/-- FDB (48_float.md R687). -/
def execFdb (br : Reg) (dspl : BitVec 8) (s : State) : Out :=
  s.readThen2 (s.daBase br dspl) fun v s => .next (s.float .div accDouble v 1)

/-- FDBX (48_float.md R688). -/
def execFdbx (br : Reg) (rx : Reg) (s : State) : Out :=
  s.readThen2 (s.daIndexed br rx) fun v s => .next (s.float .div accDouble v 1)

/-- FD (48_float.md R689). -/
def execFd (ra : Reg) (rx : Reg) (addr : Word) (s : State) : Out :=
  s.readThen2 (s.daLong addr rx) fun v s => .next (s.float .div ra v 2)

/-- EFDR (48_float.md R690). -/
def execEfdr (ra : Reg) (rb : Reg) (s : State) : Out :=
  .next (s.extended .div ra (s.triple rb) 1)

/-- EFD (48_float.md R691). -/
def execEfd (ra : Reg) (rx : Reg) (addr : Word) (s : State) : Out :=
  s.readThen3 (s.daLong addr rx) fun v s => .next (s.extended .div ra v 2)

/-- FIX: the integer portion to RA, or fixed point overflow and RA unchanged; CS from RA (48_float.md R694). An operand
neither normalized nor zero gives any word and the condition or not (R654, entry 12). -/
def execFix (ra : Reg) (rb : Reg) (s : State) : Out :=
  let o := unpack24 (s.pair rb)
  if usable 24 o then
    if 15 < o.e then .next ((s.request intFixedOverflow).finishCs (pzn (s.reg ra)) 1)
    else .next (s.finish ra (BitVec.ofInt 16 (truncate 24 o)) (pzn (BitVec.ofInt 16 (truncate 24 o))) 1)
  else .next (((s.requestIf (s.freeBit 1) intFixedOverflow).finish ra (s.free 0) (pzn (s.free 0)) 1).spend 2)

/-- FLT (48_float.md R695). -/
def execFlt (ra : Reg) (rb : Reg) (s : State) : Out :=
  .next (s.storeFloat ra (.plain (fnorm 24 ((s.reg rb).toInt * 2 ^ 8) 15)) 1)

/-- EFIX: the integer portion to RA, RA+1, or fixed point overflow and the pair unchanged; CS from the pair
(48_float.md R696). An operand neither normalized nor zero gives any pair and the condition or not (R654, entry 12). -/
def execEfix (ra : Reg) (rb : Reg) (s : State) : Out :=
  let o := unpack40 (s.triple rb)
  if usable 40 o then
    if 31 < o.e then .next ((s.request intFixedOverflow).finishCs (pzn (s.pair ra)) 1)
    else .next (s.finish2 ra (BitVec.ofInt 32 (truncate 40 o)) (pzn (BitVec.ofInt 32 (truncate 40 o))) 1)
  else
    let v := Long.ofWords (s.free 0) (s.free 1)
    .next (((s.requestIf (s.freeBit 2) intFixedOverflow).finish2 ra v (pzn v) 1).spend 3)

/-- EFLT (48_float.md R697). -/
def execEflt (ra : Reg) (rb : Reg) (s : State) : Out :=
  .next (s.storeExtended ra (.plain (fnorm 40 ((s.pair rb).toInt * 2 ^ 8) 31)) 1)

/-- FCR (48_float.md R701). -/
def execFcr (ra : Reg) (rb : Reg) (s : State) : Out :=
  .next (s.floatCompare ra (s.pair rb) 1)

/-- FCB (48_float.md R702). -/
def execFcb (br : Reg) (dspl : BitVec 8) (s : State) : Out :=
  s.readThen2 (s.daBase br dspl) fun v s => .next (s.floatCompare accDouble v 1)

/-- FCBX (48_float.md R703). -/
def execFcbx (br : Reg) (rx : Reg) (s : State) : Out :=
  s.readThen2 (s.daIndexed br rx) fun v s => .next (s.floatCompare accDouble v 1)

/-- FC (48_float.md R704). -/
def execFc (ra : Reg) (rx : Reg) (addr : Word) (s : State) : Out :=
  s.readThen2 (s.daLong addr rx) fun v s => .next (s.floatCompare ra v 2)

/-- EFCR (48_float.md R705). -/
def execEfcr (ra : Reg) (rb : Reg) (s : State) : Out :=
  .next (s.extendedCompare ra (s.triple rb) 1)

/-- EFC (48_float.md R706). -/
def execEfc (ra : Reg) (rx : Reg) (addr : Word) (s : State) : Out :=
  s.readThen3 (s.daLong addr rx) fun v s => .next (s.extendedCompare ra v 2)

end Sys2Proof.Machine
end

