-- ==== Sys2Proof/Machine/User.lean ====
section
/-! DEFINITION. What is left to the user of the machine: the effect of the built-in functions and of the spare XIO
commands (49_logic_compare_misc.md R794, 40_io.md R289; 00_scope.md R5 `BIF`, `SPARE_XIO`; entries 25, 26). -/

namespace Sys2Proof.Machine

/-- An operation that the user defines, with the words it is given. -/
inductive UserOp where
  /-- A built-in function, its Op.Ex. and its extra words. -/
  | builtin (opex : BitVec 8) (words : List Word)
  /-- A spare output command and its data word. -/
  | spareOutput (cmd r : Word)
  /-- A spare input command. -/
  | spareInput (cmd : Word)
deriving DecidableEq, Repr

/-- The state that a user defined operation makes of a state, where it changes it: any function. DESIGN CHOICE, entry
25. -/
opaque Config.userState : UserOp → State → Option State

/-- The fault that a user defined operation raises, where it does, with its MFSR word. DESIGN CHOICE, entry 25. -/
opaque Config.userFaults : UserOp → State → Option (FaultBit × Word)

/-- Where a built-in function transfers control, if it does. DESIGN CHOICE, entry 25. -/
opaque Config.userTarget : UserOp → State → Option Word

/-- What a page register holds after a write: reserved bits 0, AL 0 without a lock (10_state.md R54, D24). -/
def pageValue (c : Config) (r : Word) : Word :=
  match c.mmu with
  | none => r &&& 0xF8FF#16
  | some m => if m.hasLock then r &&& 0xF8FF#16 else r &&& 0x08FF#16

/-- The devices with another list of what has been sent to the outside. -/
def Devices.emit (d : Devices) (o : List Output) : Devices := { d with outputs := d.outputs ++ o }

/-- A memory a machine can have: canonical, within the 20-bit physical space (20_memory.md R100, R116). -/
def Memory.legal (m : Memory) : Bool := m.wf && m.below 2097152

/-- The registers, special registers, devices and memory of `u` taken over. What no instruction of the user's can do is
left as it is: the reserved bits of MFSR and of the page registers (93_implementation_defined.md U10), setting FT bits
but by a fault (10_state.md R49), requesting the machine error interrupt (30_encoding.md R195), and the model's own
fields. -/
def State.take (s u : State) : State :=
  { s with
    regs := u.regs
    sw := u.sw
    ft := s.ft &&& u.ft
    mask := u.mask
    pi := u.pi &&& (s.pi ||| 0xBFFF#16)
    spiHold := releaseHold (u.pi &&& ~~~s.pi) s.spiHold
    ien := u.ien
    enblPending := u.enblPending
    mfsr := u.mfsr &&& 0xF01F#16
    ctl := { u.ctl with
      iPage := u.ctl.iPage.map (pageValue s.cfg)
      oPage := u.ctl.oPage.map (pageValue s.cfg)
      badParity := s.ctl.badParity }
    dev := { u.dev with outputs := s.dev.outputs ++ u.dev.outputs }
    mem := if u.mem.legal then u.mem else s.mem }

/-- `s` after a user defined operation, which changes nothing where it answers no state. -/
def State.adopt (s : State) (o : Option State) : State :=
  match o with
  | none => s
  | some u => s.take u

/-- The fault of a user defined operation that establishes an AS of no group (10_state.md R45, D13). -/
def State.asFault (s : State) (o : Option State) : Option FaultReq :=
  match o with
  | none => none
  | some u => if u.as ≠ s.as ∧ asLegal s.cfg u.as = false then some addressStateFault else none

/-- The fault of a user defined operation, its user's or else that of the AS it establishes; it is never the illegal
instruction (30_encoding.md R195), and MFSR has a word for a memory fault only (10_state.md R55). -/
def State.userFault (s : State) (op : UserOp) : Option FaultReq :=
  match Config.userFaults op s with
  | none => s.asFault (Config.userState op s)
  | some (.illegalInstruction, _) => s.asFault (Config.userState op s)
  | some (b, w) =>
    some ⟨b, if b = .cpuProtect ∨ b = .dmaProtect ∨ b = .parity ∨ b = .illegalAddress then some (w &&& 0xF01F#16)
      else none⟩

end Sys2Proof.Machine
end

