-- ==== Sys2Proof/Machine/IoOps.lean ====
section
/-! DEFINITION. The XIO command space and what each command does (40_io.md R232 to R290). -/

namespace Sys2Proof.Machine

/-- An output command: data from the instruction to a device, or none (40_io.md R240 to R274, R289). -/
inductive OutCmd where
  | po (port : BitVec 10)
  | smk
  | clir
  | enbl
  | dsbl
  | rpi
  | spi
  | od
  | rns
  | wsw
  | co
  | clc
  | mpen
  | esur
  | dsur
  | dmae
  | dmad
  | tas
  | tah
  | ota
  | go
  | tbs
  | tbh
  | otb
  | lmp (a : BitVec 7)
  | wipr (page : BitVec 8)
  | wopr (page : BitVec 8)
  | spare (cmd : Word)
deriving DecidableEq, Repr

/-- An input command: data from a device to the instruction (40_io.md R247 to R250, R275 to R289). -/
inductive InCmd where
  | pi (port : BitVec 10)
  | rmk
  | ric1
  | ric2
  | rpir
  | rdor
  | rdi
  | tpio
  | rmfs
  | rsw
  | rcfr
  | ci
  | rcs
  | ita
  | itb
  | rmp (a : BitVec 7)
  | ripr (page : BitVec 8)
  | ropr (page : BitVec 8)
  | spare (cmd : Word)
deriving DecidableEq, Repr

/-- A command, by its direction bit (R232). -/
inductive XioCmd where
  | output (c : OutCmd)
  | input (c : InCmd)
deriving DecidableEq, Repr

/-- `some x` exactly when the feature is implemented (R233). -/
def onlyIf {α : Type} (b : Bool) (x : α) : Option α := if b then some x else none

/-- Commands 20XX, by the low byte (R240 to R246, R256, R257). -/
def command20 (c : Config) (lo : Byte) : Option OutCmd :=
  match lo with
  | 0x00#8 => some .smk
  | 0x01#8 => some .clir
  | 0x02#8 => some .enbl
  | 0x03#8 => some .dsbl
  | 0x04#8 => some .rpi
  | 0x05#8 => some .spi
  | 0x08#8 => onlyIf c.hasDiscretes .od
  | 0x0A#8 => onlyIf c.hasNpu .rns
  | 0x0E#8 => some .wsw
  | _ => none

/-- Commands 40XX, by the low byte (R258 to R271). -/
def command40 (c : Config) (lo : Byte) : Option OutCmd :=
  match lo with
  | 0x00#8 => onlyIf c.hasConsole .co
  | 0x01#8 => onlyIf c.hasConsole .clc
  | 0x03#8 => onlyIf c.hasMprot .mpen
  | 0x04#8 => onlyIf c.surom.isSome .esur
  | 0x05#8 => onlyIf c.surom.isSome .dsur
  | 0x06#8 => onlyIf c.hasDma .dmae
  | 0x07#8 => onlyIf c.hasDma .dmad
  | 0x08#8 => onlyIf c.hasTimers .tas
  | 0x09#8 => onlyIf c.hasTimers .tah
  | 0x0A#8 => onlyIf c.hasTimers .ota
  | 0x0B#8 => onlyIf c.hasGo .go
  | 0x0C#8 => onlyIf c.hasTimers .tbs
  | 0x0D#8 => onlyIf c.hasTimers .tbh
  | 0x0E#8 => onlyIf c.hasTimers .otb
  | _ => none

/-- Commands A0XX, by the low byte (R247 to R250, R276 to R281). -/
def commandA0 (c : Config) (lo : Byte) : Option InCmd :=
  match lo with
  | 0x00#8 => some .rmk
  | 0x01#8 => onlyIf c.hasIoic .ric1
  | 0x02#8 => onlyIf c.hasIoic .ric2
  | 0x04#8 => some .rpir
  | 0x08#8 => onlyIf c.hasDiscretes .rdor
  | 0x09#8 => onlyIf c.hasDiscretes .rdi
  | 0x0B#8 => onlyIf c.hasPio .tpio
  | 0x0D#8 => onlyIf c.hasMfsr .rmfs
  | 0x0E#8 => some .rsw
  | 0x0F#8 => some .rcfr
  | _ => none

/-- Commands C0XX, by the low byte (R282 to R285). -/
def commandC0 (c : Config) (lo : Byte) : Option InCmd :=
  match lo with
  | 0x00#8 => onlyIf c.hasConsole .ci
  | 0x01#8 => onlyIf c.hasConsole .rcs
  | 0x0A#8 => onlyIf c.hasTimers .ita
  | 0x0E#8 => onlyIf c.hasTimers .itb
  | _ => none

/-- The memory protect RAM has words 00 to 7F (R272, R286, D26). -/
def ramOk (c : Config) (lo : Byte) : Bool := c.hasMprot && !lo.msb

/-- A page register exists: expanded memory, and a group that is implemented (R273). -/
def pageOk (c : Config) (lo : Byte) : Bool :=
  match c.mmu with
  | none => false
  | some m => decide ((lo.extractLsb' 4 4).toNat < m.groups.toNat)

/-- The command of the summary table R290, if it is implemented; all 16 bits take part (R234). -/
def tableCommand (c : Config) (cmd : Word) : Option XioCmd :=
  let lo : Byte := Word.lower cmd
  match Word.upper cmd with
  | 0x00#8 => onlyIf c.hasPio (.output (.po (cmd.extractLsb' 0 10)))
  | 0x01#8 => onlyIf c.hasPio (.output (.po (cmd.extractLsb' 0 10)))
  | 0x02#8 => onlyIf c.hasPio (.output (.po (cmd.extractLsb' 0 10)))
  | 0x03#8 => onlyIf c.hasPio (.output (.po (cmd.extractLsb' 0 10)))
  | 0x20#8 => (command20 c lo).map .output
  | 0x40#8 => (command40 c lo).map .output
  | 0x50#8 => onlyIf (ramOk c lo) (.output (.lmp (lo.extractLsb' 0 7)))
  | 0x51#8 => onlyIf (pageOk c lo) (.output (.wipr lo))
  | 0x52#8 => onlyIf (pageOk c lo) (.output (.wopr lo))
  | 0x80#8 => onlyIf c.hasPio (.input (.pi (cmd.extractLsb' 0 10)))
  | 0x81#8 => onlyIf c.hasPio (.input (.pi (cmd.extractLsb' 0 10)))
  | 0x82#8 => onlyIf c.hasPio (.input (.pi (cmd.extractLsb' 0 10)))
  | 0x83#8 => onlyIf c.hasPio (.input (.pi (cmd.extractLsb' 0 10)))
  | 0xA0#8 => (commandA0 c lo).map .input
  | 0xC0#8 => (commandC0 c lo).map .input
  | 0xD0#8 => onlyIf (ramOk c lo) (.input (.rmp (lo.extractLsb' 0 7)))
  | 0xD1#8 => onlyIf (pageOk c lo) (.input (.ripr lo))
  | 0xD2#8 => onlyIf (pageOk c lo) (.input (.ropr lo))
  | _ => none

/-- The command, if `implemented(cmd)`: of the summary table, or a spare one of the configuration, its direction by its
first bit (R232, R233, R289). -/
def xioCommand (c : Config) (cmd : Word) : Option XioCmd :=
  match tableCommand c cmd with
  | some x => some x
  | none => onlyIf (c.spareXio.contains cmd) (if cmd.msb then .input (.spare cmd) else .output (.spare cmd))

/-- What a spare command does, as its user says, but to the general registers, which are the instruction's, and to SW where
its AS would name no group (40_io.md R289, R304, entry 26). -/
def State.adoptSpare (s : State) (op : UserOp) : State :=
  let t := s.adopt (Config.userState op s)
  { t with regs := s.regs, sw := if asLegal s.cfg t.as then t.sw else s.sw }

/-- An output command with its data word `r`; each arm is the whole effect of the command (40_io.md section 2 and 3).
Only WSW can fault (R246, D13). -/
def State.output (s : State) (c : OutCmd) (r : Word) : Stored :=
  match c with
  | .po port => .done { s with dev := Devices.emit { s.dev with pobuf := r } [.pio port r] }
  | .smk => .done { s with mask := r }
  | .clir => .done { s with pi := 0, ft := 0, spiHold := [] }
  | .enbl => .done { s with enblPending := true }
  | .dsbl => .done { s with ien := false, enblPending := false }
  | .rpi =>
    let n : BitVec 4 := r.extractLsb' 0 4
    .done { s with
      pi := s.pi &&& ~~~bitMask n
      spiHold := releaseHold (bitMask n) s.spiHold
      ft := if n = 1#4 then 0 else s.ft }
  | .spi => .done { s with pi := s.pi ||| r, spiHold := holdFor (r &&& ~~~s.pi) s.cfg.spiLatency s.spiHold }
  | .od => .done { s with dev := { s.dev with dout := r } }
  | .rns => .done { s with dev := { s.dev with npu := false } }
  | .wsw =>
    if asLegal s.cfg (asOf r) then .done (s.writeSw r) else .faulted addressStateFault (s.writeSw r)
  | .co =>
    .done (if s.cfg.consoleConnected then
      { s with
        dev := Devices.emit { s.dev with consoleOut := s.dev.consoleOut ++ [Word.upper r, Word.lower r] }
          [.console (Word.upper r), .console (Word.lower r)] }
    else s)
  | .clc => .done { s with dev := { s.dev with consoleIn := [], consoleOut := [] } }
  | .mpen => .done { s with ctl := { s.ctl with mprotEn := true } }
  | .esur => .done { s with ctl := { s.ctl with suromEn := true } }
  | .dsur => .done { s with ctl := { s.ctl with suromEn := false } }
  | .dmae => .done { s with dev := { s.dev with dmaEn := true } }
  | .dmad => .done { s with dev := { s.dev with dmaEn := false } }
  | .tas => .done { s with dev := { s.dev with taRun := true } }
  | .tah => .done { s with dev := { s.dev with taRun := false } }
  | .ota => .done { s with dev := { s.dev with ta := r, taRun := true } }
  | .go => .done { s with dev := Devices.emit { s.dev with goCount := 0, goHigh := true } [.go] }
  | .tbs => .done { s with dev := { s.dev with tbRun := true } }
  | .tbh => .done { s with dev := { s.dev with tbRun := false } }
  | .otb => .done { s with dev := { s.dev with tb := r, tbRun := true } }
  | .lmp a => .done { s with ctl := { s.ctl with mpr := s.ctl.mpr.set a.toNat r a.isLt } }
  | .wipr page =>
    .done { s with ctl := { s.ctl with iPage := s.ctl.iPage.set page.toNat (pageValue s.cfg r) page.isLt } }
  | .wopr page =>
    .done { s with ctl := { s.ctl with oPage := s.ctl.oPage.set page.toNat (pageValue s.cfg r) page.isLt } }
  | .spare cmd =>
    let t := s.adoptSpare (.spareOutput cmd r)
    .done { t with dev := Devices.emit t.dev [.spare cmd r] }

/-- An input command: the word it yields and the state it leaves (40_io.md section 2 and 3). What a port, an empty or
absent console or a spare command yields is a free value (93_implementation_defined.md U2, entries 26, 27). -/
def State.input (s : State) (c : InCmd) : Word × State :=
  match c with
  | .pi _ => (s.free 0, s.spend 1)
  | .rmk => (s.mask, s)
  | .ric1 => (s.dev.ioic1.zeroExtend 16, { s with dev := { s.dev with
      ioic1 := shownChannel s.dev.ioicRequests1 s.dev.ioic1, ioicHold1 := false } })
  | .ric2 => (s.dev.ioic2.zeroExtend 16, { s with dev := { s.dev with
      ioic2 := shownChannel s.dev.ioicRequests2 s.dev.ioic2, ioicHold2 := false } })
  | .rpir => (s.pi, s)
  | .rdor => (s.dev.dout, s)
  | .rdi => (s.dev.din, s)
  | .tpio => (s.dev.pobuf, s)
  | .rmfs => (s.mfsr, s)
  | .rsw => (s.sw, s)
  | .rcfr => (s.ft, { s with ft := 0, pi := s.pi &&& ~~~bitMask intMachineError })
  | .ci =>
    match s.cfg.consoleConnected, s.dev.consoleIn with
    | true, b1 :: b2 :: rest => (b1 ++ b2, { s with dev := { s.dev with consoleIn := rest } })
    | _, _ => (s.free 0, s.spend 1)
  | .rcs => (s.dev.consoleStatus, s)
  | .ita => (s.dev.ta, s)
  | .itb => (s.dev.tb, s)
  | .rmp a => (s.ctl.mpr[a.toNat]'(a.isLt), s)
  | .ripr page => (s.ctl.iPage[page.toNat]'(page.isLt), s)
  | .ropr page => (s.ctl.oPage[page.toNat]'(page.isLt), s)
  | .spare cmd => (s.free 0, (s.adoptSpare (.spareInput cmd)).spend 1)

/-- The bits of a vector select word, in the order of R302. -/
def vectorBits : List (BitVec 4) := [0, 1, 2, 3, 4, 5, 6, 7, 8, 9, 10, 11, 12, 13, 14, 15]

/-- The command of bit `n` of a VIO chain: `base + n * x[RA]` (R302). -/
def vioCommand (base step : Word) (n : BitVec 4) : Word := base + n.zeroExtend 16 * step

/-- The chain of VIO from bit `n` on: `step` is `x[RA]`, `data` the address of the next data word (R302). -/
def State.vioChain (base step sel : Word) : List (BitVec 4) → Word → State → Out
  | [], _, s => .next (s.advance 2)
  | n :: rest, data, s =>
    if stdBit sel n then
      match xioCommand s.cfg (vioCommand base step n) with
      | none => .next (s.raiseIllegalIo 2)
      | some (.output c) =>
        s.readThen data fun r s =>
          match s.output c r with
          | .done t => State.vioChain base step sel rest (data + 1) t
          | .faulted f t => .next (t.raise f)
      | some (.input c) =>
        (s.input c).2.store [(data, (s.input c).1)] fun t => State.vioChain base step sel rest (data + 1) t
    else State.vioChain base step sel rest data s

end Sys2Proof.Machine
end

