-- ==== Sys2Proof/Machine/Io.lean ====
section
/-! DEFINITION. Input/output instructions (40_io.md R230 to R304). -/

namespace Sys2Proof.Machine

/-- XIO (40_io.md R230, R231, R233). -/
def execXio (ra rx : Reg) (addr : Word) (s : State) : Out :=
  if s.ps ≠ 0#4 then .next (s.raise privilegedFault)
  else
    match xioCommand s.cfg (s.daLong addr rx) with
    | none => .next (s.raiseIllegalIo 2)
    | some (.output c) =>
      match s.output c (s.reg ra) with
      | .done t => .next (t.advance 2)
      | .faulted f t => .next (t.raise f)
    | some (.input c) => .next (((s.input c).2.setReg ra (s.input c).1).advance 2)

/-- VIO (40_io.md R300 to R304). -/
def execVio (ra rx : Reg) (addr : Word) (s : State) : Out :=
  if s.ps ≠ 0#4 then .next (s.raise privilegedFault)
  else
    let da := s.daLong addr rx
    s.readThen da fun base s =>
      s.readThen (da + 1) fun sel s => State.vioChain base (s.reg ra) sel vectorBits (da + 2) s

end Sys2Proof.Machine
end

