-- ==== Sys2Proof/Machine/Jump.lean ====
section
/-! DEFINITION. Jumps, branches, status loads and subroutine linkage (43_jump_branch.md R390 to R415). -/

namespace Sys2Proof.Machine

/-- JC and JCI take the jump (R392). -/
def jumpTaken (c cs : BitVec 4) : Bool := c == 0x7#4 || c == 0xF#4 || c &&& cs != 0#4

/-- A relative branch that tests the bits `m` of CS (R391, R396). -/
def State.branchOn (s : State) (m : BitVec 4) (d : BitVec 8) : State :=
  if s.cs &&& m ≠ 0#4 then s.setIc (s.daRelative d) else s.advance 1

/-- JC (43_jump_branch.md R392). -/
def execJc (c : BitVec 4) (rx : Reg) (addr : Word) (s : State) : Out :=
  .next (if jumpTaken c s.cs then s.setIc (s.daLong addr rx) else s.advance 2)

/-- JCI, the pointer read only if the jump is taken (43_jump_branch.md R393). -/
def execJci (c : BitVec 4) (rx : Reg) (addr : Word) (s : State) : Out :=
  if jumpTaken c s.cs then s.pointerThen addr rx fun da s => .next (s.setIc da)
  else .next (s.advance 2)

/-- JS (43_jump_branch.md R394). -/
def execJs (ra rx : Reg) (addr : Word) (s : State) : Out :=
  .next ((s.setReg ra (s.ic + 2)).setIc (s.daLong addr rx))

/-- SOJ (43_jump_branch.md R395). -/
def execSoj (ra rx : Reg) (addr : Word) (s : State) : Out :=
  let v := s.reg ra - 1
  let t := (s.setReg ra v).setCs (pzn v)
  .next (if v ≠ 0#16 then t.setIc (s.daLong addr rx) else t.advance 2)

/-- BR (43_jump_branch.md R397). -/
def execBr (d : BitVec 8) (s : State) : Out := .next (s.setIc (s.daRelative d))

/-- BEZ, Z = 1 (43_jump_branch.md R398). -/
def execBez (d : BitVec 8) (s : State) : Out := .next (s.branchOn 0b0010#4 d)

/-- BLT, N = 1 (43_jump_branch.md R399). -/
def execBlt (d : BitVec 8) (s : State) : Out := .next (s.branchOn 0b0001#4 d)

/-- BLE, Z = 1 or N = 1 (43_jump_branch.md R401). -/
def execBle (d : BitVec 8) (s : State) : Out := .next (s.branchOn 0b0011#4 d)

/-- BGT, P = 1 (43_jump_branch.md R402). -/
def execBgt (d : BitVec 8) (s : State) : Out := .next (s.branchOn 0b0100#4 d)

/-- BNZ, P = 1 or N = 1 (43_jump_branch.md R403). -/
def execBnz (d : BitVec 8) (s : State) : Out := .next (s.branchOn 0b0101#4 d)

/-- BGE, P = 1 or Z = 1 (43_jump_branch.md R404). -/
def execBge (d : BitVec 8) (s : State) : Out := .next (s.branchOn 0b0110#4 d)

/-- LST (43_jump_branch.md R405). -/
def execLst (rx : Reg) (addr : Word) (s : State) : Out :=
  if s.ps ≠ 0#4 then .next (s.raise privilegedFault)
  else s.readThen3 (s.daLong addr rx) fun t s => .next (s.loadStatus t)

/-- LSTI (43_jump_branch.md R406). -/
def execLsti (rx : Reg) (addr : Word) (s : State) : Out :=
  if s.ps ≠ 0#4 then .next (s.raise privilegedFault)
  else
    s.pointerThen addr rx fun da s => s.readThen3 da fun t s => .next (s.loadStatus t)

/-- BEX: interrupt 5 with entry `n`, whatever MK and IEN are; old IC is the next instruction (43_jump_branch.md
R408). -/
def execBex (n : BitVec 4) (s : State) : Out :=
  match s.enterInterrupt intExecutive n (s.ic + 1) with
  | .done t => .next t
  | .faulted f t => .next (t.raise f)

/-- SJS (43_jump_branch.md R410). -/
def execSjs (ra rx : Reg) (addr : Word) (s : State) : Out :=
  (s.setReg ra (s.reg ra - 1)).store [(s.reg ra - 1, s.ic + 2)] fun t => .next (t.setIc (s.daLong addr rx))

/-- URS (43_jump_branch.md R411). -/
def execUrs (ra : Reg) (s : State) : Out :=
  s.readThen (s.reg ra) fun t s => .next ((s.setReg ra (s.reg ra + 1)).setIc t)

end Sys2Proof.Machine
end

