-- ==== Sys2Proof/Machine/Load.lean ====
section
/-! DEFINITION. Loads (44_load.md R430 to R460). -/

namespace Sys2Proof.Machine

/-- A single load: `x[ra] <- v`, CS from it (R430). -/
def State.loadTo (s : State) (ra : Reg) (v len : Word) : State := s.finish ra v (pzn v) len

/-- A double load: `xx[ra] <- v`, CS from it (R440). -/
def State.loadTo2 (s : State) (ra : Reg) (v : Long) (len : Word) : State := s.finish2 ra v (pzn v) len

/-- L (44_load.md R431). -/
def execL (ra : Reg) (rx : Reg) (addr : Word) (s : State) : Out :=
  s.readThen (s.daLong addr rx) fun v s => .next (s.loadTo ra v 2)

/-- LR (44_load.md R432). -/
def execLr (ra : Reg) (rb : Reg) (s : State) : Out :=
  .next (s.loadTo ra (s.reg rb) 1)

/-- LB (44_load.md R433). -/
def execLb (br : Reg) (dspl : BitVec 8) (s : State) : Out :=
  s.readThen (s.daBase br dspl) fun v s => .next (s.loadTo accSingle v 1)

/-- LBX (44_load.md R434). -/
def execLbx (br : Reg) (rx : Reg) (s : State) : Out :=
  s.readThen (s.daIndexed br rx) fun v s => .next (s.loadTo accSingle v 1)

/-- LISP (44_load.md R435). -/
def execLisp (ra : Reg) (n : Nat) (s : State) : Out :=
  .next (s.loadTo ra (shortPositive n) 1)

/-- LISN (44_load.md R436). -/
def execLisn (ra : Reg) (n : Nat) (s : State) : Out :=
  .next (s.loadTo ra (shortNegative n) 1)

/-- LI (44_load.md R437). -/
def execLi (ra : Reg) (rx : Reg) (addr : Word) (s : State) : Out :=
  s.indirectThen addr rx fun v s => .next (s.loadTo ra v 2)

/-- LIM (44_load.md R438). -/
def execLim (ra : Reg) (rx : Reg) (addr : Word) (s : State) : Out :=
  .next (s.loadTo ra (s.daLong addr rx) 2)

/-- DL (44_load.md R441). -/
def execDl (ra : Reg) (rx : Reg) (addr : Word) (s : State) : Out :=
  s.readThen2 (s.daLong addr rx) fun v s => .next (s.loadTo2 ra v 2)

/-- DLR (44_load.md R442). -/
def execDlr (ra : Reg) (rb : Reg) (s : State) : Out :=
  .next (s.loadTo2 ra (s.pair rb) 1)

/-- DLB (44_load.md R443). -/
def execDlb (br : Reg) (dspl : BitVec 8) (s : State) : Out :=
  s.readThen2 (s.daBase br dspl) fun v s => .next (s.loadTo2 accDouble v 1)

/-- DLBX (44_load.md R444). -/
def execDlbx (br : Reg) (rx : Reg) (s : State) : Out :=
  s.readThen2 (s.daIndexed br rx) fun v s => .next (s.loadTo2 accDouble v 1)

/-- DLI (44_load.md R445). -/
def execDli (ra : Reg) (rx : Reg) (addr : Word) (s : State) : Out :=
  s.indirectThen2 addr rx fun v s => .next (s.loadTo2 ra v 2)

/-- Load `count` registers from R`k` on with the words from `la` on, each as its word is read (R446). -/
def State.loadRegs : Nat → Nat → Word → State → Out
  | 0, _, _, s => .next (s.advance 2)
  | count + 1, k, la, s =>
    s.readThen la fun w s => State.loadRegs count (k + 1) (la + 1) (s.setReg (BitVec.ofNat 4 k) w)

/-- LM (44_load.md R446). The registers before a faulting word hold their new values (60_exceptions.md R806, entry
39). -/
def execLm (n : BitVec 4) (rx : Reg) (addr : Word) (s : State) : Out :=
  State.loadRegs (n.toNat + 1) 0 (s.daLong addr rx) s

/-- The CS of an extended load, from the mantissa (R448). -/
def mantissaCs (v : Ext) : BitVec 4 :=
  if v.extractLsb' 24 24 = 0#24 ∧ v.extractLsb' 0 16 = 0#16 then 0b0010#4
  else if v.msb then 0b0001#4 else 0b0100#4

/-- EFL (44_load.md R448). -/
def execEfl (ra : Reg) (rx : Reg) (addr : Word) (s : State) : Out :=
  s.readThen3 (s.daLong addr rx) fun v s => .next (s.finish3 ra v (mantissaCs v) 2)

/-- A byte load: `b` goes to the lower byte of RA, CS from the whole register (R450). -/
def State.loadByte (s : State) (ra : Reg) (b : Byte) : State := s.loadTo ra (Word.upper (s.reg ra) ++ b) 2

/-- LUB (44_load.md R451). -/
def execLub (ra : Reg) (rx : Reg) (addr : Word) (s : State) : Out :=
  s.readThen (s.daLong addr rx) fun m s => .next (s.loadByte ra (Word.upper m))

/-- LLB (44_load.md R452). -/
def execLlb (ra : Reg) (rx : Reg) (addr : Word) (s : State) : Out :=
  s.readThen (s.daLong addr rx) fun m s => .next (s.loadByte ra (Word.lower m))

/-- LUBI (44_load.md R453). -/
def execLubi (ra : Reg) (rx : Reg) (addr : Word) (s : State) : Out :=
  s.indirectThen addr rx fun m s => .next (s.loadByte ra (Word.upper m))

/-- LLBI (44_load.md R454). -/
def execLlbi (ra : Reg) (rx : Reg) (addr : Word) (s : State) : Out :=
  s.indirectThen addr rx fun m s => .next (s.loadByte ra (Word.lower m))

/-- Pop register `k` and go on: R15 is incremented but not loaded (R455). -/
def State.popOne (s : State) (k : Reg) (next : State → Out) : Out :=
  if k = spReg then next (s.setReg spReg (s.reg spReg + 1))
  else
    s.readThen (s.reg spReg) fun w s =>
      next ((s.setReg k w).setReg spReg ((s.setReg k w).reg spReg + 1))

/-- Pop register `k` and the `n` after it, modulo 16 (R455). -/
def State.popRegs : Nat → Reg → State → Out
  | 0, k, s => s.popOne k fun t => .next (t.advance 1)
  | n + 1, k, s => s.popOne k fun t => State.popRegs n (k + 1) t

/-- POPM (44_load.md R455). -/
def execPopm (ra : Reg) (rb : Reg) (s : State) : Out :=
  State.popRegs (rb - ra).toNat ra s

end Sys2Proof.Machine
end

