-- ==== Sys2Proof/Machine/Logic.lean ====
section
/-! DEFINITION. Logical, exchange and compare instructions (49_logic_compare_misc.md R730 to R776). -/

namespace Sys2Proof.Machine

/-- A logical result: RA and CS from it (R730). -/
def State.logicTo (s : State) (ra : Reg) (v len : Word) : State := s.finish ra v (pzn v) len

/-- `RA OR DO` (R730). -/
def State.orTo (s : State) (ra : Reg) (v len : Word) : State := s.logicTo ra (s.reg ra ||| v) len

/-- `RA AND DO` (R738). -/
def State.andTo (s : State) (ra : Reg) (v len : Word) : State := s.logicTo ra (s.reg ra &&& v) len

/-- `RA XOR DO` (R746). -/
def State.xorTo (s : State) (ra : Reg) (v len : Word) : State := s.logicTo ra (s.reg ra ^^^ v) len

/-- `NOT (RA AND DO)` (R752). -/
def State.nandTo (s : State) (ra : Reg) (v len : Word) : State := s.logicTo ra (~~~(s.reg ra &&& v)) len

/-- RA against DO, signed; only CS changes (R762). -/
def State.compareTo (s : State) (ra : Reg) (v len : Word) : State :=
  s.finishCs (compareCs (s.reg ra).toInt v.toInt) len

/-- (RA, RA+1) against DO, signed; only CS changes (R774). -/
def State.compareTo2 (s : State) (ra : Reg) (v : Long) (len : Word) : State :=
  s.finishCs (compareCs (s.pair ra).toInt v.toInt) len

/-- ORR (49_logic_compare_misc.md R731). -/
def execOrr (ra : Reg) (rb : Reg) (s : State) : Out :=
  .next (s.orTo ra (s.reg rb) 1)

/-- ORB (49_logic_compare_misc.md R732). -/
def execOrb (br : Reg) (dspl : BitVec 8) (s : State) : Out :=
  s.readThen (s.daBase br dspl) fun v s => .next (s.orTo accSingle v 1)

/-- ORBX (49_logic_compare_misc.md R733). -/
def execOrbx (br : Reg) (rx : Reg) (s : State) : Out :=
  s.readThen (s.daIndexed br rx) fun v s => .next (s.orTo accSingle v 1)

/-- OR (49_logic_compare_misc.md R734). -/
def execOr (ra : Reg) (rx : Reg) (addr : Word) (s : State) : Out :=
  s.readThen (s.daLong addr rx) fun v s => .next (s.orTo ra v 2)

/-- ORIM (49_logic_compare_misc.md R735). -/
def execOrim (ra : Reg) (data : Word) (s : State) : Out :=
  .next (s.orTo ra data 2)

/-- ANDR (49_logic_compare_misc.md R739). -/
def execAndr (ra : Reg) (rb : Reg) (s : State) : Out :=
  .next (s.andTo ra (s.reg rb) 1)

/-- ANDB (49_logic_compare_misc.md R740). -/
def execAndb (br : Reg) (dspl : BitVec 8) (s : State) : Out :=
  s.readThen (s.daBase br dspl) fun v s => .next (s.andTo accSingle v 1)

/-- ANDX (49_logic_compare_misc.md R741). -/
def execAndx (br : Reg) (rx : Reg) (s : State) : Out :=
  s.readThen (s.daIndexed br rx) fun v s => .next (s.andTo accSingle v 1)

/-- AND (49_logic_compare_misc.md R742). -/
def execAnd (ra : Reg) (rx : Reg) (addr : Word) (s : State) : Out :=
  s.readThen (s.daLong addr rx) fun v s => .next (s.andTo ra v 2)

/-- ANDM (49_logic_compare_misc.md R743). -/
def execAndm (ra : Reg) (data : Word) (s : State) : Out :=
  .next (s.andTo ra data 2)

/-- XORR (49_logic_compare_misc.md R747). -/
def execXorr (ra : Reg) (rb : Reg) (s : State) : Out :=
  .next (s.xorTo ra (s.reg rb) 1)

/-- XOR (49_logic_compare_misc.md R748). -/
def execXor (ra : Reg) (rx : Reg) (addr : Word) (s : State) : Out :=
  s.readThen (s.daLong addr rx) fun v s => .next (s.xorTo ra v 2)

/-- XORM (49_logic_compare_misc.md R749). -/
def execXorm (ra : Reg) (data : Word) (s : State) : Out :=
  .next (s.xorTo ra data 2)

/-- NR (49_logic_compare_misc.md R753). -/
def execNr (ra : Reg) (rb : Reg) (s : State) : Out :=
  .next (s.nandTo ra (s.reg rb) 1)

/-- N (49_logic_compare_misc.md R754). -/
def execN (ra : Reg) (rx : Reg) (addr : Word) (s : State) : Out :=
  s.readThen (s.daLong addr rx) fun v s => .next (s.nandTo ra v 2)

/-- NIM (49_logic_compare_misc.md R755). -/
def execNim (ra : Reg) (data : Word) (s : State) : Out :=
  .next (s.nandTo ra data 2)

/-- XBR (49_logic_compare_misc.md R758). -/
def execXbr (ra : Reg) (s : State) : Out :=
  .next (s.logicTo ra (Word.lower (s.reg ra) ++ Word.upper (s.reg ra)) 1)

/-- XWR (49_logic_compare_misc.md R759). -/
def execXwr (ra : Reg) (rb : Reg) (s : State) : Out :=
  .next ((((s.setReg ra (s.reg rb)).setReg rb (s.reg ra)).setCs (pzn (s.reg rb))).advance 1)

/-- CR (49_logic_compare_misc.md R763). -/
def execCr (ra : Reg) (rb : Reg) (s : State) : Out :=
  .next (s.compareTo ra (s.reg rb) 1)

/-- CB (49_logic_compare_misc.md R764). -/
def execCb (br : Reg) (dspl : BitVec 8) (s : State) : Out :=
  s.readThen (s.daBase br dspl) fun v s => .next (s.compareTo accSingle v 1)

/-- CBX (49_logic_compare_misc.md R765). -/
def execCbx (br : Reg) (rx : Reg) (s : State) : Out :=
  s.readThen (s.daIndexed br rx) fun v s => .next (s.compareTo accSingle v 1)

/-- CISP (49_logic_compare_misc.md R766). -/
def execCisp (ra : Reg) (n : Nat) (s : State) : Out :=
  .next (s.compareTo ra (shortPositive n) 1)

/-- CISN (49_logic_compare_misc.md R767). -/
def execCisn (ra : Reg) (n : Nat) (s : State) : Out :=
  .next (s.compareTo ra (shortNegative n) 1)

/-- C (49_logic_compare_misc.md R768). -/
def execC (ra : Reg) (rx : Reg) (addr : Word) (s : State) : Out :=
  s.readThen (s.daLong addr rx) fun v s => .next (s.compareTo ra v 2)

/-- CIM (49_logic_compare_misc.md R769). -/
def execCim (ra : Reg) (data : Word) (s : State) : Out :=
  .next (s.compareTo ra data 2)

/-- CBL (49_logic_compare_misc.md R772). -/
def execCbl (ra : Reg) (rx : Reg) (addr : Word) (s : State) : Out :=
  s.readThen (s.daLong addr rx) fun lo s =>
    s.readThen (s.daLong addr rx + 1) fun hi s =>
      .next (s.finishCs (limitsCs (s.reg ra).toInt lo.toInt hi.toInt) 2)

/-- DCR (49_logic_compare_misc.md R775). -/
def execDcr (ra : Reg) (rb : Reg) (s : State) : Out :=
  .next (s.compareTo2 ra (s.pair rb) 1)

/-- DC (49_logic_compare_misc.md R776). -/
def execDc (ra : Reg) (rx : Reg) (addr : Word) (s : State) : Out :=
  s.readThen2 (s.daLong addr rx) fun v s => .next (s.compareTo2 ra v 2)

end Sys2Proof.Machine
end

