-- ==== Sys2Proof/Machine/Misc.lean ====
section
/-! DEFINITION. NOP, BPT and the built-in functions (49_logic_compare_misc.md R788 to R794). -/

namespace Sys2Proof.Machine

/-- NOP (49_logic_compare_misc.md R788). -/
def execNop (s : State) : Out := .next (s.advance 1)

/-- BPT: with a console connected the timers and the processor halt, else a no-operation (49_logic_compare_misc.md R790,
entry 22). -/
def execBpt (s : State) : Out :=
  .next (if s.cfg.hasConsole && s.cfg.consoleConnected then
    { s with dev := { s.dev with taRun := false, tbRun := false }, halted := true }.advance 1
  else s.advance 1)

/-- BIF: a function the configuration defines, with its extra words, else an illegal instruction
(49_logic_compare_misc.md R794, D17). It does what its user says, then goes on after its words or where it transfers
control, or raises the fault its user says; an illegal I/O command lets it complete (60_exceptions.md R806). Its effect
before its fault: DESIGN CHOICE, entry 25. -/
def execBuiltin (opex : BitVec 8) (s : State) : Out :=
  match s.cfg.builtins.lookup opex with
  | none => .next (s.raise illegalInstruction)
  | some extra =>
    State.fetchThen (fun ws s =>
      let op := UserOp.builtin opex ws
      match s.userFault op with
      | some f =>
        .next (if f.bit = .illegalIo then (s.adopt (Config.userState op s)).raiseIllegalIo (BitVec.ofNat 16 (extra + 1))
          else (s.adopt (Config.userState op s)).raise f)
      | none => .next ((s.adopt (Config.userState op s)).setIc
          ((Config.userTarget op s).getD (s.ic + BitVec.ofNat 16 (extra + 1))))) extra (s.ic + 1) [] s

end Sys2Proof.Machine
end

