-- ==== Sys2Proof/Machine/MulDiv.lean ====
section
/-! DEFINITION. Integer multiply and divide (47_int_muldiv.md R590 to R640). -/

namespace Sys2Proof.Machine

/-- 16 by 16 to 16: the low half of the exact product, fixed point overflow if it does not fit (R590). -/
def State.mulSingle (s : State) (ra : Reg) (v len : Word) : State :=
  let p := (s.reg ra).toInt * v.toInt
  (s.requestIf (outOfRange 16 p) intFixedOverflow).finish ra (BitVec.ofInt 16 p) (pzn (BitVec.ofInt 16 p)) len

/-- 16 by 16 to 32: never an overflow (R598). -/
def State.mulTo (s : State) (ra : Reg) (v len : Word) : State :=
  let p := (s.reg ra).toInt * v.toInt
  s.finish2 ra (BitVec.ofInt 32 p) (pzn (BitVec.ofInt 32 p)) len

/-- 32 by 32 to 32 (R606). -/
def State.mulTo2 (s : State) (ra : Reg) (v : Long) (len : Word) : State :=
  let p := (s.pair ra).toInt * v.toInt
  (s.requestIf (outOfRange 32 p) intFixedOverflow).finish2 ra (BitVec.ofInt 32 p) (pzn (BitVec.ofInt 32 p)) len

/-- Quotient to RA, remainder to RA+1, CS from the quotient (R611, R620). -/
def State.quotientTo (s : State) (ra : Reg) (q r : Word) (len : Word) : State :=
  (((s.setReg ra q).setReg (ra + 1) r).setCs (pzn q)).advance len

/-- A divide that overflows: fixed point overflow; RA, RA+1 and CS are free values (R611, R620, R630,
92_eei_decisions.md D10, entry 11). -/
def State.divideOverflow (s : State) (ra : Reg) (len : Word) : State :=
  ((s.request intFixedOverflow).finish2 ra (Long.ofWords (s.free 0) (s.free 1)) ((s.free 2).extractLsb' 0 4) len).spend 3

/-- 16 by 16: quotient truncated toward zero and remainder (R611). -/
def State.divSingle (s : State) (ra : Reg) (v len : Word) : State :=
  let a := (s.reg ra).toInt
  let b := v.toInt
  if b = 0 ∨ (a = -32768 ∧ b = -1) then s.divideOverflow ra len
  else s.quotientTo ra (BitVec.ofInt 16 (a.tdiv b)) (BitVec.ofInt 16 (a - a.tdiv b * b)) len

/-- 32 by 16: quotient truncated toward zero and remainder (R620). -/
def State.divTo (s : State) (ra : Reg) (v len : Word) : State :=
  let a := (s.pair ra).toInt
  let b := v.toInt
  if b = 0 ∨ outOfRange 16 (a.tdiv b) = true then s.divideOverflow ra len
  else s.quotientTo ra (BitVec.ofInt 16 (a.tdiv b)) (BitVec.ofInt 16 (a - a.tdiv b * b)) len

/-- 32 by 32: quotient truncated toward zero, the remainder lost (R630, D9). -/
def State.divTo2 (s : State) (ra : Reg) (v : Long) (len : Word) : State :=
  let a := (s.pair ra).toInt
  let b := v.toInt
  if b = 0 ∨ (a = -2147483648 ∧ b = -1) then s.divideOverflow ra len
  else s.finish2 ra (BitVec.ofInt 32 (a.tdiv b)) (pzn (BitVec.ofInt 32 (a.tdiv b))) len

/-- MSR (47_int_muldiv.md R591). -/
def execMsr (ra : Reg) (rb : Reg) (s : State) : Out :=
  .next (s.mulSingle ra (s.reg rb) 1)

/-- MISP (47_int_muldiv.md R592). -/
def execMisp (ra : Reg) (n : Nat) (s : State) : Out :=
  .next (s.mulSingle ra (shortPositive n) 1)

/-- MISN (47_int_muldiv.md R593). -/
def execMisn (ra : Reg) (n : Nat) (s : State) : Out :=
  .next (s.mulSingle ra (shortNegative n) 1)

/-- MS (47_int_muldiv.md R594). -/
def execMs (ra : Reg) (rx : Reg) (addr : Word) (s : State) : Out :=
  s.readThen (s.daLong addr rx) fun v s => .next (s.mulSingle ra v 2)

/-- MSIM (47_int_muldiv.md R595). -/
def execMsim (ra : Reg) (data : Word) (s : State) : Out :=
  .next (s.mulSingle ra data 2)

/-- MR (47_int_muldiv.md R599). -/
def execMr (ra : Reg) (rb : Reg) (s : State) : Out :=
  .next (s.mulTo ra (s.reg rb) 1)

/-- MB (47_int_muldiv.md R600). -/
def execMb (br : Reg) (dspl : BitVec 8) (s : State) : Out :=
  s.readThen (s.daBase br dspl) fun v s => .next (s.mulTo accSingle v 1)

/-- MBX (47_int_muldiv.md R601). -/
def execMbx (br : Reg) (rx : Reg) (s : State) : Out :=
  s.readThen (s.daIndexed br rx) fun v s => .next (s.mulTo accSingle v 1)

/-- M (47_int_muldiv.md R602). -/
def execM (ra : Reg) (rx : Reg) (addr : Word) (s : State) : Out :=
  s.readThen (s.daLong addr rx) fun v s => .next (s.mulTo ra v 2)

/-- MIM (47_int_muldiv.md R603). -/
def execMim (ra : Reg) (data : Word) (s : State) : Out :=
  .next (s.mulTo ra data 2)

/-- DMR (47_int_muldiv.md R607). -/
def execDmr (ra : Reg) (rb : Reg) (s : State) : Out :=
  .next (s.mulTo2 ra (s.pair rb) 1)

/-- DM (47_int_muldiv.md R608). -/
def execDm (ra : Reg) (rx : Reg) (addr : Word) (s : State) : Out :=
  s.readThen2 (s.daLong addr rx) fun v s => .next (s.mulTo2 ra v 2)

/-- DVR (47_int_muldiv.md R612). -/
def execDvr (ra : Reg) (rb : Reg) (s : State) : Out :=
  .next (s.divSingle ra (s.reg rb) 1)

/-- DISP (47_int_muldiv.md R613). -/
def execDisp (ra : Reg) (n : Nat) (s : State) : Out :=
  .next (s.divSingle ra (shortPositive n) 1)

/-- DISN (47_int_muldiv.md R614). -/
def execDisn (ra : Reg) (n : Nat) (s : State) : Out :=
  .next (s.divSingle ra (shortNegative n) 1)

/-- DV (47_int_muldiv.md R615). -/
def execDv (ra : Reg) (rx : Reg) (addr : Word) (s : State) : Out :=
  s.readThen (s.daLong addr rx) fun v s => .next (s.divSingle ra v 2)

/-- DVIM (47_int_muldiv.md R616). -/
def execDvim (ra : Reg) (data : Word) (s : State) : Out :=
  .next (s.divSingle ra data 2)

/-- DR (47_int_muldiv.md R621). -/
def execDr (ra : Reg) (rb : Reg) (s : State) : Out :=
  .next (s.divTo ra (s.reg rb) 1)

/-- DB (47_int_muldiv.md R622). -/
def execDb (br : Reg) (dspl : BitVec 8) (s : State) : Out :=
  s.readThen (s.daBase br dspl) fun v s => .next (s.divTo accSingle v 1)

/-- DBX (47_int_muldiv.md R623). -/
def execDbx (br : Reg) (rx : Reg) (s : State) : Out :=
  s.readThen (s.daIndexed br rx) fun v s => .next (s.divTo accSingle v 1)

/-- D (47_int_muldiv.md R624). -/
def execD (ra : Reg) (rx : Reg) (addr : Word) (s : State) : Out :=
  s.readThen (s.daLong addr rx) fun v s => .next (s.divTo ra v 2)

/-- DIM (47_int_muldiv.md R625). -/
def execDim (ra : Reg) (data : Word) (s : State) : Out :=
  .next (s.divTo ra data 2)

/-- DDR (47_int_muldiv.md R631). -/
def execDdr (ra : Reg) (rb : Reg) (s : State) : Out :=
  .next (s.divTo2 ra (s.pair rb) 1)

/-- DD (47_int_muldiv.md R632). -/
def execDd (ra : Reg) (rx : Reg) (addr : Word) (s : State) : Out :=
  s.readThen2 (s.daLong addr rx) fun v s => .next (s.divTo2 ra v 2)

end Sys2Proof.Machine
end

