-- ==== Sys2Proof/Machine/Shift.lean ====
section
/-! DEFINITION. Shift instructions (42_shift.md R350 to R370). -/

namespace Sys2Proof.Machine

/-- Write a shifted single register (R351). -/
def State.shiftEnd (s : State) (rb : Reg) (v : Word) : State := s.finish rb v (pzn v) 1

/-- Write a shifted register pair (R351). -/
def State.shiftEnd2 (s : State) (rb : Reg) (v : Long) : State := s.finish2 rb v (pzn v) 1

/-- The count in RB, a signed number (R360). -/
def State.shiftCount (s : State) (rb : Reg) : Int := (s.reg rb).toInt

/-- The value of a shift with its count in a register: left, right or none, and none past the limit (R360). -/
def shiftBy {w : Nat} (left right : BitVec w → Nat → BitVec w) (c : Int) (v : BitVec w) : BitVec w :=
  if w < c.natAbs then v else if 0 < c then left v c.toNat else if c < 0 then right v (-c).toNat else v

/-- A shift requests fixed point overflow: the count is past the limit (R360). -/
def countTooBig (w : Nat) (c : Int) : Bool := decide (w < c.natAbs)

/-- An arithmetic shift requests fixed point overflow also when a left shift changes the sign (R362, R365). -/
def arithmeticOverflow {w : Nat} (c : Int) (v : BitVec w) : Bool :=
  countTooBig w c || (decide (0 < c) && signLost v c.toNat)

/-- A shift of one register by a count in RB (R360). -/
def State.shiftVar (s : State) (left right : Word → Nat → Word) (overflow : Bool) (ra rb : Reg) : State :=
  (s.requestIf overflow intFixedOverflow).shiftEnd ra (shiftBy left right (s.shiftCount rb) (s.reg ra))

/-- A shift of a register pair by a count in RB (R360). -/
def State.shiftVar2 (s : State) (left right : Long → Nat → Long) (overflow : Bool) (ra rb : Reg) : State :=
  (s.requestIf overflow intFixedOverflow).shiftEnd2 ra (shiftBy left right (s.shiftCount rb) (s.pair ra))

/-- `shl_W` (R350). -/
def shl {w : Nat} (v : BitVec w) (n : Nat) : BitVec w := v <<< n

/-- `shr_W` (R350). -/
def shr {w : Nat} (v : BitVec w) (n : Nat) : BitVec w := v >>> n

/-- `sar_W` (R350). -/
def sar {w : Nat} (v : BitVec w) (n : Nat) : BitVec w := v.sshiftRight n

/-- SLL (42_shift.md R352). -/
def execSll (n : Nat) (rb : Reg) (s : State) : Out := .next (s.shiftEnd rb (shl (s.reg rb) n))

/-- SRL (42_shift.md R353). -/
def execSrl (n : Nat) (rb : Reg) (s : State) : Out := .next (s.shiftEnd rb (shr (s.reg rb) n))

/-- SRA (42_shift.md R354). -/
def execSra (n : Nat) (rb : Reg) (s : State) : Out := .next (s.shiftEnd rb (sar (s.reg rb) n))

/-- SLC (42_shift.md R355). -/
def execSlc (n : Nat) (rb : Reg) (s : State) : Out := .next (s.shiftEnd rb (rol (s.reg rb) n))

/-- DSLL (42_shift.md R356). -/
def execDsll (n : Nat) (rb : Reg) (s : State) : Out := .next (s.shiftEnd2 rb (shl (s.pair rb) n))

/-- DSRL (42_shift.md R357). -/
def execDsrl (n : Nat) (rb : Reg) (s : State) : Out := .next (s.shiftEnd2 rb (shr (s.pair rb) n))

/-- DSRA (42_shift.md R358). -/
def execDsra (n : Nat) (rb : Reg) (s : State) : Out := .next (s.shiftEnd2 rb (sar (s.pair rb) n))

/-- DSLC (42_shift.md R359). -/
def execDslc (n : Nat) (rb : Reg) (s : State) : Out := .next (s.shiftEnd2 rb (rol (s.pair rb) n))

/-- SLR (42_shift.md R361). -/
def execSlr (ra rb : Reg) (s : State) : Out :=
  .next (s.shiftVar shl shr (countTooBig 16 (s.shiftCount rb)) ra rb)

/-- SAR (42_shift.md R362). -/
def execSar (ra rb : Reg) (s : State) : Out :=
  .next (s.shiftVar shl sar (arithmeticOverflow (s.shiftCount rb) (s.reg ra)) ra rb)

/-- SCR (42_shift.md R363). -/
def execScr (ra rb : Reg) (s : State) : Out :=
  .next (s.shiftVar rol ror (countTooBig 16 (s.shiftCount rb)) ra rb)

/-- DSLR (42_shift.md R364). -/
def execDslr (ra rb : Reg) (s : State) : Out :=
  .next (s.shiftVar2 shl shr (countTooBig 32 (s.shiftCount rb)) ra rb)

/-- DSAR (42_shift.md R365). -/
def execDsar (ra rb : Reg) (s : State) : Out :=
  .next (s.shiftVar2 shl sar (arithmeticOverflow (s.shiftCount rb) (s.pair ra)) ra rb)

/-- DSCR (42_shift.md R366). -/
def execDscr (ra rb : Reg) (s : State) : Out :=
  .next (s.shiftVar2 rol ror (countTooBig 32 (s.shiftCount rb)) ra rb)

end Sys2Proof.Machine
end

