-- ==== Sys2Proof/Machine/Store.lean ====
section
/-! DEFINITION. Stores and moves (45_store.md R480 to R515). -/

namespace Sys2Proof.Machine

/-- ST (45_store.md R481). -/
def execSt (ra : Reg) (rx : Reg) (addr : Word) (s : State) : Out :=
  s.store [(s.daLong addr rx, s.reg ra)] fun t => .next (t.advance 2)

/-- STB (45_store.md R482). -/
def execStb (br : Reg) (dspl : BitVec 8) (s : State) : Out :=
  s.store [(s.daBase br dspl, s.reg accSingle)] fun t => .next (t.advance 1)

/-- STBX (45_store.md R483). -/
def execStbx (br : Reg) (rx : Reg) (s : State) : Out :=
  s.store [(s.daIndexed br rx, s.reg accSingle)] fun t => .next (t.advance 1)

/-- STI (45_store.md R484). -/
def execSti (ra : Reg) (rx : Reg) (addr : Word) (s : State) : Out :=
  s.pointerThen addr rx fun da s => s.store [(da, s.reg ra)] fun t => .next (t.advance 2)

/-- STC (45_store.md R485). -/
def execStc (n : BitVec 4) (rx : Reg) (addr : Word) (s : State) : Out :=
  s.store [(s.daLong addr rx, n.zeroExtend 16)] fun t => .next (t.advance 2)

/-- STCI (45_store.md R486). -/
def execStci (n : BitVec 4) (rx : Reg) (addr : Word) (s : State) : Out :=
  s.pointerThen addr rx fun da s => s.store [(da, n.zeroExtend 16)] fun t => .next (t.advance 2)

/-- DST (45_store.md R488). -/
def execDst (ra : Reg) (rx : Reg) (addr : Word) (s : State) : Out :=
  s.store (words2 (s.daLong addr rx) (s.pair ra)) fun t => .next (t.advance 2)

/-- DSTB (45_store.md R489). -/
def execDstb (br : Reg) (dspl : BitVec 8) (s : State) : Out :=
  s.store (words2 (s.daBase br dspl) (s.pair accDouble)) fun t => .next (t.advance 1)

/-- DSTX (45_store.md R490). -/
def execDstx (br : Reg) (rx : Reg) (s : State) : Out :=
  s.store (words2 (s.daIndexed br rx) (s.pair accDouble)) fun t => .next (t.advance 1)

/-- DSTI (45_store.md R491). -/
def execDsti (ra : Reg) (rx : Reg) (addr : Word) (s : State) : Out :=
  s.pointerThen addr rx fun da s => s.store (words2 da (s.pair ra)) fun t => .next (t.advance 2)

/-- The word SRM writes: the bits of `data` where `m` is 1, else the old ones (R493). -/
def throughMask (old data m : Word) : Word := (old &&& ~~~m) ||| (data &&& m)

/-- SRM (45_store.md R493). -/
def execSrm (ra : Reg) (rx : Reg) (addr : Word) (s : State) : Out :=
  s.readThen (s.daLong addr rx) fun w s =>
    s.store [(s.daLong addr rx, throughMask w (s.reg ra) (s.reg (ra + 1)))] fun t => .next (t.advance 2)

/-- The registers of MOV after one word: destination, source and count step on. Where RA, RA+1 and RB are not three
registers, both are free values (R496, entry 14). -/
def State.moveStep (s : State) (ra rb : Reg) : State :=
  if rb = ra ∨ rb = ra + 1 then ((s.setReg ra (s.free 0)).setReg (ra + 1) (s.free 1)).spend 2
  else ((s.setReg ra (s.reg ra + 1)).setReg rb (s.reg rb + 1)).setReg (ra + 1) (s.reg (ra + 1) - 1)

/-- The end of a word transfer of MOV: with words left IC stays at the MOV; after the last word it goes past it, but an
interrupt taken at this interrupt point still saves the address of the MOV (R495, R496). -/
def State.moveEnd (s : State) (ra : Reg) : State :=
  if s.reg (ra + 1) = 0#16 then { s.advance 1 with resumeIc := some s.ic } else s

/-- MOV, one word transfer a step (45_store.md R495, R496). Each transfer fetches the MOV again: DESIGN CHOICE, entry 41.
-/
def execMov (ra rb : Reg) (s : State) : Out :=
  if s.reg (ra + 1) = 0#16 then .next (s.advance 1)
  else
    s.readThen (s.reg rb) fun w s =>
      s.store [(s.reg ra, w)] fun t => .next ((t.moveStep ra rb).moveEnd ra)

/-- The words of R`k` and the `count` registers after it, from address `la` on (R497). -/
def State.regWords (s : State) : Nat → Nat → Word → List (Word × Word)
  | 0, _, _ => []
  | count + 1, k, la => (la, s.reg (BitVec.ofNat 4 k)) :: s.regWords count (k + 1) (la + 1)

/-- STM (45_store.md R497). -/
def execStm (n : BitVec 4) (rx : Reg) (addr : Word) (s : State) : Out :=
  s.store (s.regWords (n.toNat + 1) 0 (s.daLong addr rx)) fun t => .next (t.advance 2)

/-- EFST (45_store.md R498). -/
def execEfst (ra : Reg) (rx : Reg) (addr : Word) (s : State) : Out :=
  s.store (words3 (s.daLong addr rx) (s.triple ra)) fun t => .next (t.advance 2)

/-- A byte store: the lower byte of RA into one byte of the word at `da` (R500). -/
def State.storeByte (s : State) (f : Word → Byte → Word) (ra : Reg) (da : Word) : Out :=
  s.readThen da fun m s => s.store [(da, f m (Word.lower (s.reg ra)))] fun t => .next (t.advance 2)

/-- A word with its upper byte replaced (R501). -/
def withUpper (m : Word) (b : Byte) : Word := b ++ Word.lower m

/-- A word with its lower byte replaced (R502). -/
def withLower (m : Word) (b : Byte) : Word := Word.upper m ++ b

/-- STUB (45_store.md R501). -/
def execStub (ra : Reg) (rx : Reg) (addr : Word) (s : State) : Out :=
  s.storeByte withUpper ra (s.daLong addr rx)

/-- STLB (45_store.md R502). -/
def execStlb (ra : Reg) (rx : Reg) (addr : Word) (s : State) : Out :=
  s.storeByte withLower ra (s.daLong addr rx)

/-- SUBI (45_store.md R503). -/
def execSubi (ra : Reg) (rx : Reg) (addr : Word) (s : State) : Out :=
  s.pointerThen addr rx fun da s => s.storeByte withUpper ra da

/-- SLBI (45_store.md R504). -/
def execSlbi (ra : Reg) (rx : Reg) (addr : Word) (s : State) : Out :=
  s.pointerThen addr rx fun da s => s.storeByte withLower ra da

/-- The word PSHM stores for register `k`: a free value for R15 (R510, entry 15). -/
def State.pushValue (s : State) (k : Reg) : Word := if k = spReg then s.free 0 else s.reg k

/-- The words of a push of register `k` and the `n` before it, modulo 16, downward from below `sp` (R510). -/
def State.pushWords (s : State) : Nat → Reg → Word → List (Word × Word)
  | 0, k, sp => [(sp - 1, s.pushValue k)]
  | n + 1, k, sp => (sp - 1, s.pushValue k) :: s.pushWords n (k - 1) (sp - 1)

/-- PSHM (45_store.md R510). At a fault R15 has been decremented for each register up to the one whose word is
refused (60_exceptions.md R806). -/
def execPshm (ra rb : Reg) (s : State) : Out :=
  if groupImplemented s.cfg s.as then
    let ws := s.pushWords (rb - ra).toNat rb (s.reg spReg)
    match (s.spend 1).storeWords s.as (some s.ps) ws with
    | .done t => .next ((t.setReg spReg (s.reg spReg - BitVec.ofNat 16 ws.length)).advance 1)
    | .faulted f t =>
      match s.firstFault s.as (some s.ps) ws with
      | some (_, k) => .next ((t.setReg spReg (s.reg spReg - BitVec.ofNat 16 (k + 1))).raise f)
      | none => .next (t.raise f)
  else .refused .unimplementedGroup

end Sys2Proof.Machine
end

