-- ==== Sys2Proof/Machine/Dispatch.lean ====
section
/-! DEFINITION. The meaning of every instruction: one arm per constructor of Instr, one direct call each. -/

namespace Sys2Proof.Machine

def exec (i : Instr) (s : State) : Host.Outcome State Fault Refusal :=
  match i with
  | .xio ra rx addr => Sys2Proof.Machine.execXio ra rx addr s
  | .vio ra rx addr => Sys2Proof.Machine.execVio ra rx addr s
  | .sbr n rb => Sys2Proof.Machine.execSbr n rb s
  | .sb n rx addr => Sys2Proof.Machine.execSb n rx addr s
  | .sbi n rx addr => Sys2Proof.Machine.execSbi n rx addr s
  | .rbr n rb => Sys2Proof.Machine.execRbr n rb s
  | .rb n rx addr => Sys2Proof.Machine.execRb n rx addr s
  | .rbi n rx addr => Sys2Proof.Machine.execRbi n rx addr s
  | .tbr n rb => Sys2Proof.Machine.execTbr n rb s
  | .tb n rx addr => Sys2Proof.Machine.execTb n rx addr s
  | .tbi n rx addr => Sys2Proof.Machine.execTbi n rx addr s
  | .tsb n rx addr => Sys2Proof.Machine.execTsb n rx addr s
  | .svbr ra rb => Sys2Proof.Machine.execSvbr ra rb s
  | .rvbr ra rb => Sys2Proof.Machine.execRvbr ra rb s
  | .tvbr ra rb => Sys2Proof.Machine.execTvbr ra rb s
  | .sll n rb => Sys2Proof.Machine.execSll n rb s
  | .srl n rb => Sys2Proof.Machine.execSrl n rb s
  | .sra n rb => Sys2Proof.Machine.execSra n rb s
  | .slc n rb => Sys2Proof.Machine.execSlc n rb s
  | .dsll n rb => Sys2Proof.Machine.execDsll n rb s
  | .dsrl n rb => Sys2Proof.Machine.execDsrl n rb s
  | .dsra n rb => Sys2Proof.Machine.execDsra n rb s
  | .dslc n rb => Sys2Proof.Machine.execDslc n rb s
  | .slr ra rb => Sys2Proof.Machine.execSlr ra rb s
  | .sar ra rb => Sys2Proof.Machine.execSar ra rb s
  | .scr ra rb => Sys2Proof.Machine.execScr ra rb s
  | .dslr ra rb => Sys2Proof.Machine.execDslr ra rb s
  | .dsar ra rb => Sys2Proof.Machine.execDsar ra rb s
  | .dscr ra rb => Sys2Proof.Machine.execDscr ra rb s
  | .jc c rx addr => Sys2Proof.Machine.execJc c rx addr s
  | .jci c rx addr => Sys2Proof.Machine.execJci c rx addr s
  | .js ra rx addr => Sys2Proof.Machine.execJs ra rx addr s
  | .soj ra rx addr => Sys2Proof.Machine.execSoj ra rx addr s
  | .br d => Sys2Proof.Machine.execBr d s
  | .bez d => Sys2Proof.Machine.execBez d s
  | .blt d => Sys2Proof.Machine.execBlt d s
  | .ble d => Sys2Proof.Machine.execBle d s
  | .bgt d => Sys2Proof.Machine.execBgt d s
  | .bnz d => Sys2Proof.Machine.execBnz d s
  | .bge d => Sys2Proof.Machine.execBge d s
  | .lst rx addr => Sys2Proof.Machine.execLst rx addr s
  | .lsti rx addr => Sys2Proof.Machine.execLsti rx addr s
  | .bex n => Sys2Proof.Machine.execBex n s
  | .sjs ra rx addr => Sys2Proof.Machine.execSjs ra rx addr s
  | .urs ra => Sys2Proof.Machine.execUrs ra s
  | .l ra rx addr => Sys2Proof.Machine.execL ra rx addr s
  | .lr ra rb => Sys2Proof.Machine.execLr ra rb s
  | .lb br dspl => Sys2Proof.Machine.execLb br dspl s
  | .lbx br rx => Sys2Proof.Machine.execLbx br rx s
  | .lisp ra n => Sys2Proof.Machine.execLisp ra n s
  | .lisn ra n => Sys2Proof.Machine.execLisn ra n s
  | .li ra rx addr => Sys2Proof.Machine.execLi ra rx addr s
  | .lim ra rx addr => Sys2Proof.Machine.execLim ra rx addr s
  | .dl ra rx addr => Sys2Proof.Machine.execDl ra rx addr s
  | .dlr ra rb => Sys2Proof.Machine.execDlr ra rb s
  | .dlb br dspl => Sys2Proof.Machine.execDlb br dspl s
  | .dlbx br rx => Sys2Proof.Machine.execDlbx br rx s
  | .dli ra rx addr => Sys2Proof.Machine.execDli ra rx addr s
  | .lm n rx addr => Sys2Proof.Machine.execLm n rx addr s
  | .efl ra rx addr => Sys2Proof.Machine.execEfl ra rx addr s
  | .lub ra rx addr => Sys2Proof.Machine.execLub ra rx addr s
  | .llb ra rx addr => Sys2Proof.Machine.execLlb ra rx addr s
  | .lubi ra rx addr => Sys2Proof.Machine.execLubi ra rx addr s
  | .llbi ra rx addr => Sys2Proof.Machine.execLlbi ra rx addr s
  | .popm ra rb => Sys2Proof.Machine.execPopm ra rb s
  | .st ra rx addr => Sys2Proof.Machine.execSt ra rx addr s
  | .stb br dspl => Sys2Proof.Machine.execStb br dspl s
  | .stbx br rx => Sys2Proof.Machine.execStbx br rx s
  | .sti ra rx addr => Sys2Proof.Machine.execSti ra rx addr s
  | .stc n rx addr => Sys2Proof.Machine.execStc n rx addr s
  | .stci n rx addr => Sys2Proof.Machine.execStci n rx addr s
  | .dst ra rx addr => Sys2Proof.Machine.execDst ra rx addr s
  | .dstb br dspl => Sys2Proof.Machine.execDstb br dspl s
  | .dstx br rx => Sys2Proof.Machine.execDstx br rx s
  | .dsti ra rx addr => Sys2Proof.Machine.execDsti ra rx addr s
  | .srm ra rx addr => Sys2Proof.Machine.execSrm ra rx addr s
  | .mov ra rb => Sys2Proof.Machine.execMov ra rb s
  | .stm n rx addr => Sys2Proof.Machine.execStm n rx addr s
  | .efst ra rx addr => Sys2Proof.Machine.execEfst ra rx addr s
  | .stub ra rx addr => Sys2Proof.Machine.execStub ra rx addr s
  | .stlb ra rx addr => Sys2Proof.Machine.execStlb ra rx addr s
  | .subi ra rx addr => Sys2Proof.Machine.execSubi ra rx addr s
  | .slbi ra rx addr => Sys2Proof.Machine.execSlbi ra rx addr s
  | .pshm ra rb => Sys2Proof.Machine.execPshm ra rb s
  | .ar ra rb => Sys2Proof.Machine.execAr ra rb s
  | .ab br dspl => Sys2Proof.Machine.execAb br dspl s
  | .abx br rx => Sys2Proof.Machine.execAbx br rx s
  | .aisp ra n => Sys2Proof.Machine.execAisp ra n s
  | .a ra rx addr => Sys2Proof.Machine.execA ra rx addr s
  | .aim ra data => Sys2Proof.Machine.execAim ra data s
  | .incm n rx addr => Sys2Proof.Machine.execIncm n rx addr s
  | .abs ra rb => Sys2Proof.Machine.execAbs ra rb s
  | .dabs ra rb => Sys2Proof.Machine.execDabs ra rb s
  | .dar ra rb => Sys2Proof.Machine.execDar ra rb s
  | .da ra rx addr => Sys2Proof.Machine.execDa ra rx addr s
  | .sr ra rb => Sys2Proof.Machine.execSr ra rb s
  | .sbb br dspl => Sys2Proof.Machine.execSbb br dspl s
  | .sbbx br rx => Sys2Proof.Machine.execSbbx br rx s
  | .sisp ra n => Sys2Proof.Machine.execSisp ra n s
  | .s ra rx addr => Sys2Proof.Machine.execS ra rx addr s
  | .sim ra data => Sys2Proof.Machine.execSim ra data s
  | .decm n rx addr => Sys2Proof.Machine.execDecm n rx addr s
  | .neg ra rb => Sys2Proof.Machine.execNeg ra rb s
  | .dneg ra rb => Sys2Proof.Machine.execDneg ra rb s
  | .dsr ra rb => Sys2Proof.Machine.execDsr ra rb s
  | .ds ra rx addr => Sys2Proof.Machine.execDs ra rx addr s
  | .msr ra rb => Sys2Proof.Machine.execMsr ra rb s
  | .misp ra n => Sys2Proof.Machine.execMisp ra n s
  | .misn ra n => Sys2Proof.Machine.execMisn ra n s
  | .ms ra rx addr => Sys2Proof.Machine.execMs ra rx addr s
  | .msim ra data => Sys2Proof.Machine.execMsim ra data s
  | .mr ra rb => Sys2Proof.Machine.execMr ra rb s
  | .mb br dspl => Sys2Proof.Machine.execMb br dspl s
  | .mbx br rx => Sys2Proof.Machine.execMbx br rx s
  | .m ra rx addr => Sys2Proof.Machine.execM ra rx addr s
  | .mim ra data => Sys2Proof.Machine.execMim ra data s
  | .dmr ra rb => Sys2Proof.Machine.execDmr ra rb s
  | .dm ra rx addr => Sys2Proof.Machine.execDm ra rx addr s
  | .dvr ra rb => Sys2Proof.Machine.execDvr ra rb s
  | .disp ra n => Sys2Proof.Machine.execDisp ra n s
  | .disn ra n => Sys2Proof.Machine.execDisn ra n s
  | .dv ra rx addr => Sys2Proof.Machine.execDv ra rx addr s
  | .dvim ra data => Sys2Proof.Machine.execDvim ra data s
  | .dr ra rb => Sys2Proof.Machine.execDr ra rb s
  | .db br dspl => Sys2Proof.Machine.execDb br dspl s
  | .dbx br rx => Sys2Proof.Machine.execDbx br rx s
  | .d ra rx addr => Sys2Proof.Machine.execD ra rx addr s
  | .dim ra data => Sys2Proof.Machine.execDim ra data s
  | .ddr ra rb => Sys2Proof.Machine.execDdr ra rb s
  | .dd ra rx addr => Sys2Proof.Machine.execDd ra rx addr s
  | .far ra rb => Sys2Proof.Machine.execFar ra rb s
  | .fab br dspl => Sys2Proof.Machine.execFab br dspl s
  | .fabx br rx => Sys2Proof.Machine.execFabx br rx s
  | .fa ra rx addr => Sys2Proof.Machine.execFa ra rx addr s
  | .efar ra rb => Sys2Proof.Machine.execEfar ra rb s
  | .efa ra rx addr => Sys2Proof.Machine.execEfa ra rx addr s
  | .fsr ra rb => Sys2Proof.Machine.execFsr ra rb s
  | .fsb br dspl => Sys2Proof.Machine.execFsb br dspl s
  | .fsbx br rx => Sys2Proof.Machine.execFsbx br rx s
  | .fs ra rx addr => Sys2Proof.Machine.execFs ra rx addr s
  | .efsr ra rb => Sys2Proof.Machine.execEfsr ra rb s
  | .efs ra rx addr => Sys2Proof.Machine.execEfs ra rx addr s
  | .fabs ra rb => Sys2Proof.Machine.execFabs ra rb s
  | .fneg ra rb => Sys2Proof.Machine.execFneg ra rb s
  | .fmr ra rb => Sys2Proof.Machine.execFmr ra rb s
  | .fmb br dspl => Sys2Proof.Machine.execFmb br dspl s
  | .fmbx br rx => Sys2Proof.Machine.execFmbx br rx s
  | .fm ra rx addr => Sys2Proof.Machine.execFm ra rx addr s
  | .efmr ra rb => Sys2Proof.Machine.execEfmr ra rb s
  | .efm ra rx addr => Sys2Proof.Machine.execEfm ra rx addr s
  | .fdr ra rb => Sys2Proof.Machine.execFdr ra rb s
  | .fdb br dspl => Sys2Proof.Machine.execFdb br dspl s
  | .fdbx br rx => Sys2Proof.Machine.execFdbx br rx s
  | .fd ra rx addr => Sys2Proof.Machine.execFd ra rx addr s
  | .efdr ra rb => Sys2Proof.Machine.execEfdr ra rb s
  | .efd ra rx addr => Sys2Proof.Machine.execEfd ra rx addr s
  | .fix ra rb => Sys2Proof.Machine.execFix ra rb s
  | .flt ra rb => Sys2Proof.Machine.execFlt ra rb s
  | .efix ra rb => Sys2Proof.Machine.execEfix ra rb s
  | .eflt ra rb => Sys2Proof.Machine.execEflt ra rb s
  | .fcr ra rb => Sys2Proof.Machine.execFcr ra rb s
  | .fcb br dspl => Sys2Proof.Machine.execFcb br dspl s
  | .fcbx br rx => Sys2Proof.Machine.execFcbx br rx s
  | .fc ra rx addr => Sys2Proof.Machine.execFc ra rx addr s
  | .efcr ra rb => Sys2Proof.Machine.execEfcr ra rb s
  | .efc ra rx addr => Sys2Proof.Machine.execEfc ra rx addr s
  | .orr ra rb => Sys2Proof.Machine.execOrr ra rb s
  | .orb br dspl => Sys2Proof.Machine.execOrb br dspl s
  | .orbx br rx => Sys2Proof.Machine.execOrbx br rx s
  | .or ra rx addr => Sys2Proof.Machine.execOr ra rx addr s
  | .orim ra data => Sys2Proof.Machine.execOrim ra data s
  | .andr ra rb => Sys2Proof.Machine.execAndr ra rb s
  | .andb br dspl => Sys2Proof.Machine.execAndb br dspl s
  | .andx br rx => Sys2Proof.Machine.execAndx br rx s
  | .and ra rx addr => Sys2Proof.Machine.execAnd ra rx addr s
  | .andm ra data => Sys2Proof.Machine.execAndm ra data s
  | .xorr ra rb => Sys2Proof.Machine.execXorr ra rb s
  | .xor ra rx addr => Sys2Proof.Machine.execXor ra rx addr s
  | .xorm ra data => Sys2Proof.Machine.execXorm ra data s
  | .nr ra rb => Sys2Proof.Machine.execNr ra rb s
  | .n ra rx addr => Sys2Proof.Machine.execN ra rx addr s
  | .nim ra data => Sys2Proof.Machine.execNim ra data s
  | .xbr ra => Sys2Proof.Machine.execXbr ra s
  | .xwr ra rb => Sys2Proof.Machine.execXwr ra rb s
  | .cr ra rb => Sys2Proof.Machine.execCr ra rb s
  | .cb br dspl => Sys2Proof.Machine.execCb br dspl s
  | .cbx br rx => Sys2Proof.Machine.execCbx br rx s
  | .cisp ra n => Sys2Proof.Machine.execCisp ra n s
  | .cisn ra n => Sys2Proof.Machine.execCisn ra n s
  | .c ra rx addr => Sys2Proof.Machine.execC ra rx addr s
  | .cim ra data => Sys2Proof.Machine.execCim ra data s
  | .cbl ra rx addr => Sys2Proof.Machine.execCbl ra rx addr s
  | .dcr ra rb => Sys2Proof.Machine.execDcr ra rb s
  | .dc ra rx addr => Sys2Proof.Machine.execDc ra rx addr s
  | .nop => Sys2Proof.Machine.execNop s
  | .bpt => Sys2Proof.Machine.execBpt s
  | .builtin opex => Sys2Proof.Machine.execBuiltin opex s

end Sys2Proof.Machine
end

