-- ==== Sys2Proof/WellFormed.lean ====
section
/-! DEFINITION. Which instructions an assembler can write: base registers 12 to 15 (10_state.md R31b), counts and
short immediates 1 to 16 (30_encoding.md R181, R200). Every other field is exactly as wide as its encoding. -/

namespace Sys2Proof

/-- A base register is R12, R13, R14 or R15 (10_state.md R31b). -/
def Reg.isBase (br : Reg) : Bool := decide (12 ≤ br.toNat)

/-- A count or short immediate is between 1 and 16 (30_encoding.md R181, R200). -/
def countOk (n : Nat) : Bool := decide (1 ≤ n ∧ n ≤ 16)

/-- The instruction is one the encoding can express. -/
def wellFormed : Instr → Bool
  | .xio _ _ _ => true
  | .vio _ _ _ => true
  | .sbr _ _ => true
  | .sb _ _ _ => true
  | .sbi _ _ _ => true
  | .rbr _ _ => true
  | .rb _ _ _ => true
  | .rbi _ _ _ => true
  | .tbr _ _ => true
  | .tb _ _ _ => true
  | .tbi _ _ _ => true
  | .tsb _ _ _ => true
  | .svbr _ _ => true
  | .rvbr _ _ => true
  | .tvbr _ _ => true
  | .sll n _ => countOk n
  | .srl n _ => countOk n
  | .sra n _ => countOk n
  | .slc n _ => countOk n
  | .dsll n _ => countOk n
  | .dsrl n _ => countOk n
  | .dsra n _ => countOk n
  | .dslc n _ => countOk n
  | .slr _ _ => true
  | .sar _ _ => true
  | .scr _ _ => true
  | .dslr _ _ => true
  | .dsar _ _ => true
  | .dscr _ _ => true
  | .jc _ _ _ => true
  | .jci _ _ _ => true
  | .js _ _ _ => true
  | .soj _ _ _ => true
  | .br _ => true
  | .bez _ => true
  | .blt _ => true
  | .ble _ => true
  | .bgt _ => true
  | .bnz _ => true
  | .bge _ => true
  | .lst _ _ => true
  | .lsti _ _ => true
  | .bex _ => true
  | .sjs _ _ _ => true
  | .urs _ => true
  | .l _ _ _ => true
  | .lr _ _ => true
  | .lb br _ => Reg.isBase br
  | .lbx br _ => Reg.isBase br
  | .lisp _ n => countOk n
  | .lisn _ n => countOk n
  | .li _ _ _ => true
  | .lim _ _ _ => true
  | .dl _ _ _ => true
  | .dlr _ _ => true
  | .dlb br _ => Reg.isBase br
  | .dlbx br _ => Reg.isBase br
  | .dli _ _ _ => true
  | .lm _ _ _ => true
  | .efl _ _ _ => true
  | .lub _ _ _ => true
  | .llb _ _ _ => true
  | .lubi _ _ _ => true
  | .llbi _ _ _ => true
  | .popm _ _ => true
  | .st _ _ _ => true
  | .stb br _ => Reg.isBase br
  | .stbx br _ => Reg.isBase br
  | .sti _ _ _ => true
  | .stc _ _ _ => true
  | .stci _ _ _ => true
  | .dst _ _ _ => true
  | .dstb br _ => Reg.isBase br
  | .dstx br _ => Reg.isBase br
  | .dsti _ _ _ => true
  | .srm _ _ _ => true
  | .mov _ _ => true
  | .stm _ _ _ => true
  | .efst _ _ _ => true
  | .stub _ _ _ => true
  | .stlb _ _ _ => true
  | .subi _ _ _ => true
  | .slbi _ _ _ => true
  | .pshm _ _ => true
  | .ar _ _ => true
  | .ab br _ => Reg.isBase br
  | .abx br _ => Reg.isBase br
  | .aisp _ n => countOk n
  | .a _ _ _ => true
  | .aim _ _ => true
  | .incm n _ _ => countOk n
  | .abs _ _ => true
  | .dabs _ _ => true
  | .dar _ _ => true
  | .da _ _ _ => true
  | .sr _ _ => true
  | .sbb br _ => Reg.isBase br
  | .sbbx br _ => Reg.isBase br
  | .sisp _ n => countOk n
  | .s _ _ _ => true
  | .sim _ _ => true
  | .decm n _ _ => countOk n
  | .neg _ _ => true
  | .dneg _ _ => true
  | .dsr _ _ => true
  | .ds _ _ _ => true
  | .msr _ _ => true
  | .misp _ n => countOk n
  | .misn _ n => countOk n
  | .ms _ _ _ => true
  | .msim _ _ => true
  | .mr _ _ => true
  | .mb br _ => Reg.isBase br
  | .mbx br _ => Reg.isBase br
  | .m _ _ _ => true
  | .mim _ _ => true
  | .dmr _ _ => true
  | .dm _ _ _ => true
  | .dvr _ _ => true
  | .disp _ n => countOk n
  | .disn _ n => countOk n
  | .dv _ _ _ => true
  | .dvim _ _ => true
  | .dr _ _ => true
  | .db br _ => Reg.isBase br
  | .dbx br _ => Reg.isBase br
  | .d _ _ _ => true
  | .dim _ _ => true
  | .ddr _ _ => true
  | .dd _ _ _ => true
  | .far _ _ => true
  | .fab br _ => Reg.isBase br
  | .fabx br _ => Reg.isBase br
  | .fa _ _ _ => true
  | .efar _ _ => true
  | .efa _ _ _ => true
  | .fsr _ _ => true
  | .fsb br _ => Reg.isBase br
  | .fsbx br _ => Reg.isBase br
  | .fs _ _ _ => true
  | .efsr _ _ => true
  | .efs _ _ _ => true
  | .fabs _ _ => true
  | .fneg _ _ => true
  | .fmr _ _ => true
  | .fmb br _ => Reg.isBase br
  | .fmbx br _ => Reg.isBase br
  | .fm _ _ _ => true
  | .efmr _ _ => true
  | .efm _ _ _ => true
  | .fdr _ _ => true
  | .fdb br _ => Reg.isBase br
  | .fdbx br _ => Reg.isBase br
  | .fd _ _ _ => true
  | .efdr _ _ => true
  | .efd _ _ _ => true
  | .fix _ _ => true
  | .flt _ _ => true
  | .efix _ _ => true
  | .eflt _ _ => true
  | .fcr _ _ => true
  | .fcb br _ => Reg.isBase br
  | .fcbx br _ => Reg.isBase br
  | .fc _ _ _ => true
  | .efcr _ _ => true
  | .efc _ _ _ => true
  | .orr _ _ => true
  | .orb br _ => Reg.isBase br
  | .orbx br _ => Reg.isBase br
  | .or _ _ _ => true
  | .orim _ _ => true
  | .andr _ _ => true
  | .andb br _ => Reg.isBase br
  | .andx br _ => Reg.isBase br
  | .and _ _ _ => true
  | .andm _ _ => true
  | .xorr _ _ => true
  | .xor _ _ _ => true
  | .xorm _ _ => true
  | .nr _ _ => true
  | .n _ _ _ => true
  | .nim _ _ => true
  | .xbr _ => true
  | .xwr _ _ => true
  | .cr _ _ => true
  | .cb br _ => Reg.isBase br
  | .cbx br _ => Reg.isBase br
  | .cisp _ n => countOk n
  | .cisn _ n => countOk n
  | .c _ _ _ => true
  | .cim _ _ => true
  | .cbl _ _ _ => true
  | .dcr _ _ => true
  | .dc _ _ _ => true
  | .nop => true
  | .bpt => true
  | .builtin _ => true

end Sys2Proof
end

