-- ==== Sys2Proof/Decode.lean ====
section
/-! DEFINITION. The decoder, total on any bytes, and after it the encoder (30_encoding.md R160 to R197). The first
word alone decides whether an instruction is legal and how long it is (R170, R195). -/

namespace Sys2Proof

/-- Why bytes are not an instruction. -/
inductive DecodeError where
  /-- The first word is not defined by the standard (30_encoding.md R195, R196). -/
  | undefinedWord (w0 : Word)
  /-- The bytes end before the instruction does. -/
  | truncated
deriving DecidableEq, Repr

/-- What the first word settles: a whole instruction, or one that needs its second word (R170). -/
inductive Partial where
  | whole (i : Instr)
  | needs (k : Word → Instr)

/-- The standard's bits 0 to 3 of a first word. -/
def hiNibble (w0 : Word) : BitVec 4 := w0.extractLsb' 12 4

/-- The standard's bits 4 to 7 of a first word. -/
def loNibble (w0 : Word) : BitVec 4 := w0.extractLsb' 8 4

/-- GR1, the standard's bits 8 to 11 (R161). -/
def field1 (w0 : Word) : BitVec 4 := w0.extractLsb' 4 4

/-- GR2 or RX, the standard's bits 12 to 15 (R161, R165). -/
def field2 (w0 : Word) : BitVec 4 := w0.extractLsb' 0 4

/-- The register that a 2-bit base field names: R12 to R15 (R163). -/
def baseReg (br' : BitVec 2) : Reg := 0x3#2 ++ br'

/-- A field that holds n - 1 names the count n (R181). -/
def fieldCount (f : BitVec 4) : Nat := f.toNat + 1

/-- The base relative group, opcode bytes 00 to 3F, by the 6-bit opcode (30_encoding.md R163, R190). -/
def decodeBase (op6 : BitVec 6) (br : Reg) (dspl : BitVec 8) : Option Partial :=
  match op6 with
  | 0x00#6 => some (.whole (.lb br dspl))
  | 0x01#6 => some (.whole (.dlb br dspl))
  | 0x02#6 => some (.whole (.stb br dspl))
  | 0x03#6 => some (.whole (.dstb br dspl))
  | 0x04#6 => some (.whole (.ab br dspl))
  | 0x05#6 => some (.whole (.sbb br dspl))
  | 0x06#6 => some (.whole (.mb br dspl))
  | 0x07#6 => some (.whole (.db br dspl))
  | 0x08#6 => some (.whole (.fab br dspl))
  | 0x09#6 => some (.whole (.fsb br dspl))
  | 0x0A#6 => some (.whole (.fmb br dspl))
  | 0x0B#6 => some (.whole (.fdb br dspl))
  | 0x0C#6 => some (.whole (.orb br dspl))
  | 0x0D#6 => some (.whole (.andb br dspl))
  | 0x0E#6 => some (.whole (.cb br dspl))
  | 0x0F#6 => some (.whole (.fcb br dspl))
  | _ => none

/-- The base relative indexed group, opcode bytes 40 to 43, by the opcode extension (30_encoding.md R191). -/
def decodeBaseIndexed (opex : BitVec 4) (br rx : Reg) : Option Partial :=
  match opex with
  | 0x0#4 => some (.whole (.lbx br rx))
  | 0x1#4 => some (.whole (.dlbx br rx))
  | 0x2#4 => some (.whole (.stbx br rx))
  | 0x3#4 => some (.whole (.dstx br rx))
  | 0x4#4 => some (.whole (.abx br rx))
  | 0x5#4 => some (.whole (.sbbx br rx))
  | 0x6#4 => some (.whole (.mbx br rx))
  | 0x7#4 => some (.whole (.dbx br rx))
  | 0x8#4 => some (.whole (.fabx br rx))
  | 0x9#4 => some (.whole (.fsbx br rx))
  | 0xA#4 => some (.whole (.fmbx br rx))
  | 0xB#4 => some (.whole (.fdbx br rx))
  | 0xC#4 => some (.whole (.cbx br rx))
  | 0xD#4 => some (.whole (.fcbx br rx))
  | 0xE#4 => some (.whole (.andx br rx))
  | 0xF#4 => some (.whole (.orbx br rx))
  | _ => none

/-- The immediate group, opcode byte 4A, by the opcode extension (30_encoding.md R192). -/
def decodeImmediate (opex : BitVec 4) (ra : Reg) : Option Partial :=
  match opex with
  | 0x1#4 => some (.needs fun data => .aim ra data)
  | 0x2#4 => some (.needs fun data => .sim ra data)
  | 0x3#4 => some (.needs fun data => .mim ra data)
  | 0x4#4 => some (.needs fun data => .msim ra data)
  | 0x5#4 => some (.needs fun data => .dim ra data)
  | 0x6#4 => some (.needs fun data => .dvim ra data)
  | 0x7#4 => some (.needs fun data => .andm ra data)
  | 0x8#4 => some (.needs fun data => .orim ra data)
  | 0x9#4 => some (.needs fun data => .xorm ra data)
  | 0xA#4 => some (.needs fun data => .cim ra data)
  | 0xB#4 => some (.needs fun data => .nim ra data)
  | _ => none

/-- Column 4 of Table X, opcode bytes 44 to 4F, by the low nibble of the opcode byte; `f1` and `f2` are the two 4-bit
fields (30_encoding.md R190, R196). -/
def decodeExtension (lo f1 f2 : BitVec 4) : Option Partial :=
  match lo with
  | 0x8#4 => some (.needs fun addr => .xio f1 f2 addr)
  | 0x9#4 => some (.needs fun addr => .vio f1 f2 addr)
  | 0xA#4 => decodeImmediate f2 f1
  | 0xF#4 => some (.whole (.builtin (f1 ++ f2)))
  | _ => none

/-- Column 5 of Table X, opcode bytes 50 to 5F, by the low nibble of the opcode byte; `f1` and `f2` are the two 4-bit
fields (30_encoding.md R190, R196). -/
def decodeBit (lo f1 f2 : BitVec 4) : Option Partial :=
  match lo with
  | 0x0#4 => some (.needs fun addr => .sb f1 f2 addr)
  | 0x1#4 => some (.whole (.sbr f1 f2))
  | 0x2#4 => some (.needs fun addr => .sbi f1 f2 addr)
  | 0x3#4 => some (.needs fun addr => .rb f1 f2 addr)
  | 0x4#4 => some (.whole (.rbr f1 f2))
  | 0x5#4 => some (.needs fun addr => .rbi f1 f2 addr)
  | 0x6#4 => some (.needs fun addr => .tb f1 f2 addr)
  | 0x7#4 => some (.whole (.tbr f1 f2))
  | 0x8#4 => some (.needs fun addr => .tbi f1 f2 addr)
  | 0x9#4 => some (.needs fun addr => .tsb f1 f2 addr)
  | 0xA#4 => some (.whole (.svbr f1 f2))
  | 0xC#4 => some (.whole (.rvbr f1 f2))
  | 0xE#4 => some (.whole (.tvbr f1 f2))
  | _ => none

/-- Column 6 of Table X, opcode bytes 60 to 6F, by the low nibble of the opcode byte; `f1` and `f2` are the two 4-bit
fields (30_encoding.md R190, R196). -/
def decodeShift (lo f1 f2 : BitVec 4) : Option Partial :=
  match lo with
  | 0x0#4 => some (.whole (.sll (fieldCount f1) f2))
  | 0x1#4 => some (.whole (.srl (fieldCount f1) f2))
  | 0x2#4 => some (.whole (.sra (fieldCount f1) f2))
  | 0x3#4 => some (.whole (.slc (fieldCount f1) f2))
  | 0x5#4 => some (.whole (.dsll (fieldCount f1) f2))
  | 0x6#4 => some (.whole (.dsrl (fieldCount f1) f2))
  | 0x7#4 => some (.whole (.dsra (fieldCount f1) f2))
  | 0x8#4 => some (.whole (.dslc (fieldCount f1) f2))
  | 0xA#4 => some (.whole (.slr f1 f2))
  | 0xB#4 => some (.whole (.sar f1 f2))
  | 0xC#4 => some (.whole (.scr f1 f2))
  | 0xD#4 => some (.whole (.dslr f1 f2))
  | 0xE#4 => some (.whole (.dsar f1 f2))
  | 0xF#4 => some (.whole (.dscr f1 f2))
  | _ => none

/-- Column 7 of Table X, opcode bytes 70 to 7F, by the low nibble of the opcode byte; `f1` and `f2` are the two 4-bit
fields (30_encoding.md R190, R196). -/
def decodeJump (lo f1 f2 : BitVec 4) : Option Partial :=
  match lo with
  | 0x0#4 => some (.needs fun addr => .jc f1 f2 addr)
  | 0x1#4 => some (.needs fun addr => .jci f1 f2 addr)
  | 0x2#4 => some (.needs fun addr => .js f1 f2 addr)
  | 0x3#4 => some (.needs fun addr => .soj f1 f2 addr)
  | 0x4#4 => some (.whole (.br (f1 ++ f2)))
  | 0x5#4 => some (.whole (.bez (f1 ++ f2)))
  | 0x6#4 => some (.whole (.blt (f1 ++ f2)))
  | 0x7#4 => if f1 = 0 then some (.whole (.bex f2)) else none
  | 0x8#4 => some (.whole (.ble (f1 ++ f2)))
  | 0x9#4 => some (.whole (.bgt (f1 ++ f2)))
  | 0xA#4 => some (.whole (.bnz (f1 ++ f2)))
  | 0xB#4 => some (.whole (.bge (f1 ++ f2)))
  | 0xC#4 => if f1 = 0 then some (.needs fun addr => .lsti f2 addr) else none
  | 0xD#4 => if f1 = 0 then some (.needs fun addr => .lst f2 addr) else none
  | 0xE#4 => some (.needs fun addr => .sjs f1 f2 addr)
  | 0xF#4 => if f2 = 0 then some (.whole (.urs f1)) else none
  | _ => none

/-- Column 8 of Table X, opcode bytes 80 to 8F, by the low nibble of the opcode byte; `f1` and `f2` are the two 4-bit
fields (30_encoding.md R190, R196). -/
def decodeLoad (lo f1 f2 : BitVec 4) : Option Partial :=
  match lo with
  | 0x0#4 => some (.needs fun addr => .l f1 f2 addr)
  | 0x1#4 => some (.whole (.lr f1 f2))
  | 0x2#4 => some (.whole (.lisp f1 (fieldCount f2)))
  | 0x3#4 => some (.whole (.lisn f1 (fieldCount f2)))
  | 0x4#4 => some (.needs fun addr => .li f1 f2 addr)
  | 0x5#4 => some (.needs fun addr => .lim f1 f2 addr)
  | 0x6#4 => some (.needs fun addr => .dl f1 f2 addr)
  | 0x7#4 => some (.whole (.dlr f1 f2))
  | 0x8#4 => some (.needs fun addr => .dli f1 f2 addr)
  | 0x9#4 => some (.needs fun addr => .lm f1 f2 addr)
  | 0xA#4 => some (.needs fun addr => .efl f1 f2 addr)
  | 0xB#4 => some (.needs fun addr => .lub f1 f2 addr)
  | 0xC#4 => some (.needs fun addr => .llb f1 f2 addr)
  | 0xD#4 => some (.needs fun addr => .lubi f1 f2 addr)
  | 0xE#4 => some (.needs fun addr => .llbi f1 f2 addr)
  | 0xF#4 => some (.whole (.popm f1 f2))
  | _ => none

/-- Column 9 of Table X, opcode bytes 90 to 9F, by the low nibble of the opcode byte; `f1` and `f2` are the two 4-bit
fields (30_encoding.md R190, R196). -/
def decodeStore (lo f1 f2 : BitVec 4) : Option Partial :=
  match lo with
  | 0x0#4 => some (.needs fun addr => .st f1 f2 addr)
  | 0x1#4 => some (.needs fun addr => .stc f1 f2 addr)
  | 0x2#4 => some (.needs fun addr => .stci f1 f2 addr)
  | 0x3#4 => some (.whole (.mov f1 f2))
  | 0x4#4 => some (.needs fun addr => .sti f1 f2 addr)
  | 0x6#4 => some (.needs fun addr => .dst f1 f2 addr)
  | 0x7#4 => some (.needs fun addr => .srm f1 f2 addr)
  | 0x8#4 => some (.needs fun addr => .dsti f1 f2 addr)
  | 0x9#4 => some (.needs fun addr => .stm f1 f2 addr)
  | 0xA#4 => some (.needs fun addr => .efst f1 f2 addr)
  | 0xB#4 => some (.needs fun addr => .stub f1 f2 addr)
  | 0xC#4 => some (.needs fun addr => .stlb f1 f2 addr)
  | 0xD#4 => some (.needs fun addr => .subi f1 f2 addr)
  | 0xE#4 => some (.needs fun addr => .slbi f1 f2 addr)
  | 0xF#4 => some (.whole (.pshm f1 f2))
  | _ => none

/-- Column A of Table X, opcode bytes A0 to AF, by the low nibble of the opcode byte; `f1` and `f2` are the two 4-bit
fields (30_encoding.md R190, R196). -/
def decodeAdd (lo f1 f2 : BitVec 4) : Option Partial :=
  match lo with
  | 0x0#4 => some (.needs fun addr => .a f1 f2 addr)
  | 0x1#4 => some (.whole (.ar f1 f2))
  | 0x2#4 => some (.whole (.aisp f1 (fieldCount f2)))
  | 0x3#4 => some (.needs fun addr => .incm (fieldCount f1) f2 addr)
  | 0x4#4 => some (.whole (.abs f1 f2))
  | 0x5#4 => some (.whole (.dabs f1 f2))
  | 0x6#4 => some (.needs fun addr => .da f1 f2 addr)
  | 0x7#4 => some (.whole (.dar f1 f2))
  | 0x8#4 => some (.needs fun addr => .fa f1 f2 addr)
  | 0x9#4 => some (.whole (.far f1 f2))
  | 0xA#4 => some (.needs fun addr => .efa f1 f2 addr)
  | 0xB#4 => some (.whole (.efar f1 f2))
  | 0xC#4 => some (.whole (.fabs f1 f2))
  | _ => none

/-- Column B of Table X, opcode bytes B0 to BF, by the low nibble of the opcode byte; `f1` and `f2` are the two 4-bit
fields (30_encoding.md R190, R196). -/
def decodeSub (lo f1 f2 : BitVec 4) : Option Partial :=
  match lo with
  | 0x0#4 => some (.needs fun addr => .s f1 f2 addr)
  | 0x1#4 => some (.whole (.sr f1 f2))
  | 0x2#4 => some (.whole (.sisp f1 (fieldCount f2)))
  | 0x3#4 => some (.needs fun addr => .decm (fieldCount f1) f2 addr)
  | 0x4#4 => some (.whole (.neg f1 f2))
  | 0x5#4 => some (.whole (.dneg f1 f2))
  | 0x6#4 => some (.needs fun addr => .ds f1 f2 addr)
  | 0x7#4 => some (.whole (.dsr f1 f2))
  | 0x8#4 => some (.needs fun addr => .fs f1 f2 addr)
  | 0x9#4 => some (.whole (.fsr f1 f2))
  | 0xA#4 => some (.needs fun addr => .efs f1 f2 addr)
  | 0xB#4 => some (.whole (.efsr f1 f2))
  | 0xC#4 => some (.whole (.fneg f1 f2))
  | _ => none

/-- Column C of Table X, opcode bytes C0 to CF, by the low nibble of the opcode byte; `f1` and `f2` are the two 4-bit
fields (30_encoding.md R190, R196). -/
def decodeMult (lo f1 f2 : BitVec 4) : Option Partial :=
  match lo with
  | 0x0#4 => some (.needs fun addr => .ms f1 f2 addr)
  | 0x1#4 => some (.whole (.msr f1 f2))
  | 0x2#4 => some (.whole (.misp f1 (fieldCount f2)))
  | 0x3#4 => some (.whole (.misn f1 (fieldCount f2)))
  | 0x4#4 => some (.needs fun addr => .m f1 f2 addr)
  | 0x5#4 => some (.whole (.mr f1 f2))
  | 0x6#4 => some (.needs fun addr => .dm f1 f2 addr)
  | 0x7#4 => some (.whole (.dmr f1 f2))
  | 0x8#4 => some (.needs fun addr => .fm f1 f2 addr)
  | 0x9#4 => some (.whole (.fmr f1 f2))
  | 0xA#4 => some (.needs fun addr => .efm f1 f2 addr)
  | 0xB#4 => some (.whole (.efmr f1 f2))
  | _ => none

/-- Column D of Table X, opcode bytes D0 to DF, by the low nibble of the opcode byte; `f1` and `f2` are the two 4-bit
fields (30_encoding.md R190, R196). -/
def decodeDivide (lo f1 f2 : BitVec 4) : Option Partial :=
  match lo with
  | 0x0#4 => some (.needs fun addr => .dv f1 f2 addr)
  | 0x1#4 => some (.whole (.dvr f1 f2))
  | 0x2#4 => some (.whole (.disp f1 (fieldCount f2)))
  | 0x3#4 => some (.whole (.disn f1 (fieldCount f2)))
  | 0x4#4 => some (.needs fun addr => .d f1 f2 addr)
  | 0x5#4 => some (.whole (.dr f1 f2))
  | 0x6#4 => some (.needs fun addr => .dd f1 f2 addr)
  | 0x7#4 => some (.whole (.ddr f1 f2))
  | 0x8#4 => some (.needs fun addr => .fd f1 f2 addr)
  | 0x9#4 => some (.whole (.fdr f1 f2))
  | 0xA#4 => some (.needs fun addr => .efd f1 f2 addr)
  | 0xB#4 => some (.whole (.efdr f1 f2))
  | _ => none

/-- Column E of Table X, opcode bytes E0 to EF, by the low nibble of the opcode byte; `f1` and `f2` are the two 4-bit
fields (30_encoding.md R190, R196). -/
def decodeLogical (lo f1 f2 : BitVec 4) : Option Partial :=
  match lo with
  | 0x0#4 => some (.needs fun addr => .or f1 f2 addr)
  | 0x1#4 => some (.whole (.orr f1 f2))
  | 0x2#4 => some (.needs fun addr => .and f1 f2 addr)
  | 0x3#4 => some (.whole (.andr f1 f2))
  | 0x4#4 => some (.needs fun addr => .xor f1 f2 addr)
  | 0x5#4 => some (.whole (.xorr f1 f2))
  | 0x6#4 => some (.needs fun addr => .n f1 f2 addr)
  | 0x7#4 => some (.whole (.nr f1 f2))
  | 0x8#4 => some (.whole (.fix f1 f2))
  | 0x9#4 => some (.whole (.flt f1 f2))
  | 0xA#4 => some (.whole (.efix f1 f2))
  | 0xB#4 => some (.whole (.eflt f1 f2))
  | 0xC#4 => if f2 = 0 then some (.whole (.xbr f1)) else none
  | 0xD#4 => some (.whole (.xwr f1 f2))
  | _ => none

/-- Column F of Table X, opcode bytes F0 to FF, by the low nibble of the opcode byte; `f1` and `f2` are the two 4-bit
fields (30_encoding.md R190, R196). -/
def decodeCompare (lo f1 f2 : BitVec 4) : Option Partial :=
  match lo with
  | 0x0#4 => some (.needs fun addr => .c f1 f2 addr)
  | 0x1#4 => some (.whole (.cr f1 f2))
  | 0x2#4 => some (.whole (.cisp f1 (fieldCount f2)))
  | 0x3#4 => some (.whole (.cisn f1 (fieldCount f2)))
  | 0x4#4 => some (.needs fun addr => .cbl f1 f2 addr)
  | 0x6#4 => some (.needs fun addr => .dc f1 f2 addr)
  | 0x7#4 => some (.whole (.dcr f1 f2))
  | 0x8#4 => some (.needs fun addr => .fc f1 f2 addr)
  | 0x9#4 => some (.whole (.fcr f1 f2))
  | 0xA#4 => some (.needs fun addr => .efc f1 f2 addr)
  | 0xB#4 => some (.whole (.efcr f1 f2))
  | 0xF#4 =>
    if f1 ++ f2 = 0x00#8 then some (.whole .nop) else if f1 ++ f2 = 0xFF#8 then some (.whole .bpt) else none
  | _ => none

/-- The meaning of a first word; `none` for every undefined word (30_encoding.md R170, R190 to R196). -/
def decodeFirst (w0 : Word) : Option Partial :=
  let lo := loNibble w0
  let f1 := field1 w0
  let f2 := field2 w0
  let br := baseReg (w0.extractLsb' 8 2)
  match hiNibble w0 with
  | 0x0#4 => decodeBase (w0.extractLsb' 10 6) br (w0.extractLsb' 0 8)
  | 0x1#4 => decodeBase (w0.extractLsb' 10 6) br (w0.extractLsb' 0 8)
  | 0x2#4 => decodeBase (w0.extractLsb' 10 6) br (w0.extractLsb' 0 8)
  | 0x3#4 => decodeBase (w0.extractLsb' 10 6) br (w0.extractLsb' 0 8)
  | 0x4#4 => if w0.extractLsb' 10 2 = 0#2 then decodeBaseIndexed f1 br f2 else decodeExtension lo f1 f2
  | 0x5#4 => decodeBit lo f1 f2
  | 0x6#4 => decodeShift lo f1 f2
  | 0x7#4 => decodeJump lo f1 f2
  | 0x8#4 => decodeLoad lo f1 f2
  | 0x9#4 => decodeStore lo f1 f2
  | 0xA#4 => decodeAdd lo f1 f2
  | 0xB#4 => decodeSub lo f1 f2
  | 0xC#4 => decodeMult lo f1 f2
  | 0xD#4 => decodeDivide lo f1 f2
  | 0xE#4 => decodeLogical lo f1 f2
  | 0xF#4 => decodeCompare lo f1 f2
  | _ => none

/-- The first word of XIO, VIO, LST or LSTI, the privileged instructions (60_exceptions.md R830). -/
def isPrivilegedWord (w0 : Word) : Bool :=
  let op : BitVec 8 := w0.extractLsb' 8 8
  op == 0x48#8 || op == 0x49#8 || op == 0x7C#8 || op == 0x7D#8

/-- Decode one instruction from a list of words, and what follows it. -/
def decodeWords : List Word → Except DecodeError (Instr × List Word)
  | [] => .error .truncated
  | w0 :: rest =>
    match decodeFirst w0 with
    | none => .error (.undefinedWord w0)
    | some (.whole i) => .ok (i, rest)
    | some (.needs k) =>
      match rest with
      | [] => .error .truncated
      | w1 :: rest' => .ok (k w1, rest')

/-- Bytes as words, the upper byte of each word first; an odd last byte is dropped (20_memory.md R106). -/
def wordsOfBytes : List Byte → List Word
  | hi :: lo :: rest => (hi ++ lo) :: wordsOfBytes rest
  | _ => []

/-- Words as bytes, the upper byte of each word first. -/
def bytesOfWords : List Word → List Byte
  | [] => []
  | w :: rest => Word.upper w :: Word.lower w :: bytesOfWords rest

/-- Decode one instruction from bytes, and the words that follow it. Total: undefined words and short input are
refused by name. -/
def decode (bs : List Byte) : Except DecodeError (Instr × List Word) := decodeWords (wordsOfBytes bs)

/-- The host's view of the decoder: the instruction whose first word is bits 15 to 0 of `w` and whose second word
is bits 31 to 16, bits at and above `nbits` being 0. -/
def decodeTableWord (nbits w : Nat) : Option Instr :=
  let v := w % 2 ^ nbits
  match decode (bytesOfWords [BitVec.ofNat 16 v, BitVec.ofNat 16 (v / 65536)]) with
  | .ok (i, _) => some i
  | .error _ => none

/-! ### The encoder -/

/-- The field of a count: n - 1 (30_encoding.md R181). -/
def countField (n : Nat) : BitVec 4 := BitVec.ofNat 4 (n - 1)

/-- Formats RR, LONG and IMX: an opcode byte and two 4-bit fields (R161, R165, R166). -/
def rr (op : BitVec 8) (f1 f2 : BitVec 4) : Word := (op ++ f1 ++ f2 : BitVec (8 + 4 + 4))

/-- Formats S and ICR: an opcode byte and an 8-bit field (R162, R167). -/
def special (op d : BitVec 8) : Word := (op ++ d : BitVec (8 + 8))

/-- Formats B and BX: a 6-bit opcode, BR' = BR - 12 and 8 bits (R163, R164). -/
def based (op6 : BitVec 6) (br : Reg) (d : BitVec 8) : Word :=
  (op6 ++ br.extractLsb' 0 2 ++ d : BitVec (6 + 2 + 8))

/-- The words of an instruction (30_encoding.md R190 to R192). -/
def encode : Instr → List Word
  | .xio ra rx addr => [rr 0x48 ra rx, addr]
  | .vio ra rx addr => [rr 0x49 ra rx, addr]
  | .sbr n rb => [rr 0x51 n rb]
  | .sb n rx addr => [rr 0x50 n rx, addr]
  | .sbi n rx addr => [rr 0x52 n rx, addr]
  | .rbr n rb => [rr 0x54 n rb]
  | .rb n rx addr => [rr 0x53 n rx, addr]
  | .rbi n rx addr => [rr 0x55 n rx, addr]
  | .tbr n rb => [rr 0x57 n rb]
  | .tb n rx addr => [rr 0x56 n rx, addr]
  | .tbi n rx addr => [rr 0x58 n rx, addr]
  | .tsb n rx addr => [rr 0x59 n rx, addr]
  | .svbr ra rb => [rr 0x5A ra rb]
  | .rvbr ra rb => [rr 0x5C ra rb]
  | .tvbr ra rb => [rr 0x5E ra rb]
  | .sll n rb => [rr 0x60 (countField n) rb]
  | .srl n rb => [rr 0x61 (countField n) rb]
  | .sra n rb => [rr 0x62 (countField n) rb]
  | .slc n rb => [rr 0x63 (countField n) rb]
  | .dsll n rb => [rr 0x65 (countField n) rb]
  | .dsrl n rb => [rr 0x66 (countField n) rb]
  | .dsra n rb => [rr 0x67 (countField n) rb]
  | .dslc n rb => [rr 0x68 (countField n) rb]
  | .slr ra rb => [rr 0x6A ra rb]
  | .sar ra rb => [rr 0x6B ra rb]
  | .scr ra rb => [rr 0x6C ra rb]
  | .dslr ra rb => [rr 0x6D ra rb]
  | .dsar ra rb => [rr 0x6E ra rb]
  | .dscr ra rb => [rr 0x6F ra rb]
  | .jc c rx addr => [rr 0x70 c rx, addr]
  | .jci c rx addr => [rr 0x71 c rx, addr]
  | .js ra rx addr => [rr 0x72 ra rx, addr]
  | .soj ra rx addr => [rr 0x73 ra rx, addr]
  | .br d => [special 0x74 d]
  | .bez d => [special 0x75 d]
  | .blt d => [special 0x76 d]
  | .ble d => [special 0x78 d]
  | .bgt d => [special 0x79 d]
  | .bnz d => [special 0x7A d]
  | .bge d => [special 0x7B d]
  | .lst rx addr => [rr 0x7D 0 rx, addr]
  | .lsti rx addr => [rr 0x7C 0 rx, addr]
  | .bex n => [rr 0x77 0 n]
  | .sjs ra rx addr => [rr 0x7E ra rx, addr]
  | .urs ra => [rr 0x7F ra 0]
  | .l ra rx addr => [rr 0x80 ra rx, addr]
  | .lr ra rb => [rr 0x81 ra rb]
  | .lb br dspl => [based 0x00 br dspl]
  | .lbx br rx => [based 0x10 br (0x0#4 ++ rx)]
  | .lisp ra n => [rr 0x82 ra (countField n)]
  | .lisn ra n => [rr 0x83 ra (countField n)]
  | .li ra rx addr => [rr 0x84 ra rx, addr]
  | .lim ra rx addr => [rr 0x85 ra rx, addr]
  | .dl ra rx addr => [rr 0x86 ra rx, addr]
  | .dlr ra rb => [rr 0x87 ra rb]
  | .dlb br dspl => [based 0x01 br dspl]
  | .dlbx br rx => [based 0x10 br (0x1#4 ++ rx)]
  | .dli ra rx addr => [rr 0x88 ra rx, addr]
  | .lm n rx addr => [rr 0x89 n rx, addr]
  | .efl ra rx addr => [rr 0x8A ra rx, addr]
  | .lub ra rx addr => [rr 0x8B ra rx, addr]
  | .llb ra rx addr => [rr 0x8C ra rx, addr]
  | .lubi ra rx addr => [rr 0x8D ra rx, addr]
  | .llbi ra rx addr => [rr 0x8E ra rx, addr]
  | .popm ra rb => [rr 0x8F ra rb]
  | .st ra rx addr => [rr 0x90 ra rx, addr]
  | .stb br dspl => [based 0x02 br dspl]
  | .stbx br rx => [based 0x10 br (0x2#4 ++ rx)]
  | .sti ra rx addr => [rr 0x94 ra rx, addr]
  | .stc n rx addr => [rr 0x91 n rx, addr]
  | .stci n rx addr => [rr 0x92 n rx, addr]
  | .dst ra rx addr => [rr 0x96 ra rx, addr]
  | .dstb br dspl => [based 0x03 br dspl]
  | .dstx br rx => [based 0x10 br (0x3#4 ++ rx)]
  | .dsti ra rx addr => [rr 0x98 ra rx, addr]
  | .srm ra rx addr => [rr 0x97 ra rx, addr]
  | .mov ra rb => [rr 0x93 ra rb]
  | .stm n rx addr => [rr 0x99 n rx, addr]
  | .efst ra rx addr => [rr 0x9A ra rx, addr]
  | .stub ra rx addr => [rr 0x9B ra rx, addr]
  | .stlb ra rx addr => [rr 0x9C ra rx, addr]
  | .subi ra rx addr => [rr 0x9D ra rx, addr]
  | .slbi ra rx addr => [rr 0x9E ra rx, addr]
  | .pshm ra rb => [rr 0x9F ra rb]
  | .ar ra rb => [rr 0xA1 ra rb]
  | .ab br dspl => [based 0x04 br dspl]
  | .abx br rx => [based 0x10 br (0x4#4 ++ rx)]
  | .aisp ra n => [rr 0xA2 ra (countField n)]
  | .a ra rx addr => [rr 0xA0 ra rx, addr]
  | .aim ra data => [rr 0x4A ra 0x1, data]
  | .incm n rx addr => [rr 0xA3 (countField n) rx, addr]
  | .abs ra rb => [rr 0xA4 ra rb]
  | .dabs ra rb => [rr 0xA5 ra rb]
  | .dar ra rb => [rr 0xA7 ra rb]
  | .da ra rx addr => [rr 0xA6 ra rx, addr]
  | .sr ra rb => [rr 0xB1 ra rb]
  | .sbb br dspl => [based 0x05 br dspl]
  | .sbbx br rx => [based 0x10 br (0x5#4 ++ rx)]
  | .sisp ra n => [rr 0xB2 ra (countField n)]
  | .s ra rx addr => [rr 0xB0 ra rx, addr]
  | .sim ra data => [rr 0x4A ra 0x2, data]
  | .decm n rx addr => [rr 0xB3 (countField n) rx, addr]
  | .neg ra rb => [rr 0xB4 ra rb]
  | .dneg ra rb => [rr 0xB5 ra rb]
  | .dsr ra rb => [rr 0xB7 ra rb]
  | .ds ra rx addr => [rr 0xB6 ra rx, addr]
  | .msr ra rb => [rr 0xC1 ra rb]
  | .misp ra n => [rr 0xC2 ra (countField n)]
  | .misn ra n => [rr 0xC3 ra (countField n)]
  | .ms ra rx addr => [rr 0xC0 ra rx, addr]
  | .msim ra data => [rr 0x4A ra 0x4, data]
  | .mr ra rb => [rr 0xC5 ra rb]
  | .mb br dspl => [based 0x06 br dspl]
  | .mbx br rx => [based 0x10 br (0x6#4 ++ rx)]
  | .m ra rx addr => [rr 0xC4 ra rx, addr]
  | .mim ra data => [rr 0x4A ra 0x3, data]
  | .dmr ra rb => [rr 0xC7 ra rb]
  | .dm ra rx addr => [rr 0xC6 ra rx, addr]
  | .dvr ra rb => [rr 0xD1 ra rb]
  | .disp ra n => [rr 0xD2 ra (countField n)]
  | .disn ra n => [rr 0xD3 ra (countField n)]
  | .dv ra rx addr => [rr 0xD0 ra rx, addr]
  | .dvim ra data => [rr 0x4A ra 0x6, data]
  | .dr ra rb => [rr 0xD5 ra rb]
  | .db br dspl => [based 0x07 br dspl]
  | .dbx br rx => [based 0x10 br (0x7#4 ++ rx)]
  | .d ra rx addr => [rr 0xD4 ra rx, addr]
  | .dim ra data => [rr 0x4A ra 0x5, data]
  | .ddr ra rb => [rr 0xD7 ra rb]
  | .dd ra rx addr => [rr 0xD6 ra rx, addr]
  | .far ra rb => [rr 0xA9 ra rb]
  | .fab br dspl => [based 0x08 br dspl]
  | .fabx br rx => [based 0x10 br (0x8#4 ++ rx)]
  | .fa ra rx addr => [rr 0xA8 ra rx, addr]
  | .efar ra rb => [rr 0xAB ra rb]
  | .efa ra rx addr => [rr 0xAA ra rx, addr]
  | .fsr ra rb => [rr 0xB9 ra rb]
  | .fsb br dspl => [based 0x09 br dspl]
  | .fsbx br rx => [based 0x10 br (0x9#4 ++ rx)]
  | .fs ra rx addr => [rr 0xB8 ra rx, addr]
  | .efsr ra rb => [rr 0xBB ra rb]
  | .efs ra rx addr => [rr 0xBA ra rx, addr]
  | .fabs ra rb => [rr 0xAC ra rb]
  | .fneg ra rb => [rr 0xBC ra rb]
  | .fmr ra rb => [rr 0xC9 ra rb]
  | .fmb br dspl => [based 0x0A br dspl]
  | .fmbx br rx => [based 0x10 br (0xA#4 ++ rx)]
  | .fm ra rx addr => [rr 0xC8 ra rx, addr]
  | .efmr ra rb => [rr 0xCB ra rb]
  | .efm ra rx addr => [rr 0xCA ra rx, addr]
  | .fdr ra rb => [rr 0xD9 ra rb]
  | .fdb br dspl => [based 0x0B br dspl]
  | .fdbx br rx => [based 0x10 br (0xB#4 ++ rx)]
  | .fd ra rx addr => [rr 0xD8 ra rx, addr]
  | .efdr ra rb => [rr 0xDB ra rb]
  | .efd ra rx addr => [rr 0xDA ra rx, addr]
  | .fix ra rb => [rr 0xE8 ra rb]
  | .flt ra rb => [rr 0xE9 ra rb]
  | .efix ra rb => [rr 0xEA ra rb]
  | .eflt ra rb => [rr 0xEB ra rb]
  | .fcr ra rb => [rr 0xF9 ra rb]
  | .fcb br dspl => [based 0x0F br dspl]
  | .fcbx br rx => [based 0x10 br (0xD#4 ++ rx)]
  | .fc ra rx addr => [rr 0xF8 ra rx, addr]
  | .efcr ra rb => [rr 0xFB ra rb]
  | .efc ra rx addr => [rr 0xFA ra rx, addr]
  | .orr ra rb => [rr 0xE1 ra rb]
  | .orb br dspl => [based 0x0C br dspl]
  | .orbx br rx => [based 0x10 br (0xF#4 ++ rx)]
  | .or ra rx addr => [rr 0xE0 ra rx, addr]
  | .orim ra data => [rr 0x4A ra 0x8, data]
  | .andr ra rb => [rr 0xE3 ra rb]
  | .andb br dspl => [based 0x0D br dspl]
  | .andx br rx => [based 0x10 br (0xE#4 ++ rx)]
  | .and ra rx addr => [rr 0xE2 ra rx, addr]
  | .andm ra data => [rr 0x4A ra 0x7, data]
  | .xorr ra rb => [rr 0xE5 ra rb]
  | .xor ra rx addr => [rr 0xE4 ra rx, addr]
  | .xorm ra data => [rr 0x4A ra 0x9, data]
  | .nr ra rb => [rr 0xE7 ra rb]
  | .n ra rx addr => [rr 0xE6 ra rx, addr]
  | .nim ra data => [rr 0x4A ra 0xB, data]
  | .xbr ra => [rr 0xEC ra 0]
  | .xwr ra rb => [rr 0xED ra rb]
  | .cr ra rb => [rr 0xF1 ra rb]
  | .cb br dspl => [based 0x0E br dspl]
  | .cbx br rx => [based 0x10 br (0xC#4 ++ rx)]
  | .cisp ra n => [rr 0xF2 ra (countField n)]
  | .cisn ra n => [rr 0xF3 ra (countField n)]
  | .c ra rx addr => [rr 0xF0 ra rx, addr]
  | .cim ra data => [rr 0x4A ra 0xA, data]
  | .cbl ra rx addr => [rr 0xF4 ra rx, addr]
  | .dcr ra rb => [rr 0xF7 ra rb]
  | .dc ra rx addr => [rr 0xF6 ra rx, addr]
  | .nop => [special 0xFF 0x00]
  | .bpt => [special 0xFF 0xFF]
  | .builtin opex => [special 0x4F opex]

/-- The length of an instruction in words; a built-in function counts its first word only (R170). -/
def Instr.length (i : Instr) : Nat := (encode i).length

end Sys2Proof
end

