-- ==== Sys2Proof/Machine/Fetch.lean ====
section
/-! DEFINITION. Fetching an instruction (20_memory.md R112, 30_encoding.md R170), in the order of checks of
60_exceptions.md R804, and placing one for the host. -/

namespace Sys2Proof.Machine

/-- The instruction at IC, or why there is none, and the state its references leave: first word, decode, privilege, second
word (60_exceptions.md R804). -/
def State.fetchInstr (s : State) : Except Stop Instr × State :=
  match s.fetch s.ic with
  | .error e => (.error e, s.turn)
  | .ok w0 =>
    match decodeFirst w0 with
    | none => (.error (.fault illegalInstruction), s.turn)
    | some p =>
      if isPrivilegedWord w0 && s.ps != 0#4 then (.error (.fault privilegedFault), s.turn)
      else
        match p with
        | .whole i => (.ok i, s.turn)
        | .needs k =>
          match s.turn.fetch (s.ic + 1) with
          | .error e => (.error e, s.turn.turn)
          | .ok w1 => (.ok (k w1), s.turn.turn)

/-- A word placed where a fetch of `la` finds it: in the start up ROM where that overlays, else in memory; no change
where the fetch is refused. -/
def State.placeWord (s : State) (la w : Word) : State :=
  match s.translate .cpu .fetch s.as (some s.ps) la with
  | .error _ => s
  | .ok pa => if s.romOverlay pa then { s with rom := Memory.writeWord s.rom pa w } else s.physWrite pa w

/-- The words of `w`, numbered as the opcode table numbers its bits, placed at IC; a halted processor runs again, and no DMA
comes in between. The loader of 70_reset_and_hazards.md R892, entry 34. -/
def State.placeInstr (s : State) (nbits w : Nat) : State :=
  let v := w % 2 ^ nbits
  let s := { s with halted := false, dma := { s.dma with slots := [] } }
  (s.placeWord s.ic (BitVec.ofNat 16 v)).placeWord (s.ic + 1) (BitVec.ofNat 16 (v / 65536))

end Sys2Proof.Machine
end

