-- ==== Sys2Proof/Machine/Step.lean ====
section
/-! DEFINITION. One step of the machine (60_exceptions.md R822): fetch, execute, boundary. -/

namespace Sys2Proof.Machine

/-- Fetch and execute: the instruction at IC, or one word transfer of MOV, or the fault of its fetch. -/
def State.runInstruction (s : State) : Out :=
  match s.fetchInstr with
  | (.error e, t) => t.stop e
  | (.ok i, t) => exec i t

/-- One instruction, or one word transfer of MOV, and the boundary after it. A processor halted at a breakpoint makes no
step: the run has ended (49_logic_compare_misc.md R790, 70_reset_and_hazards.md R891a). -/
def step (s : State) : Host.Outcome State Fault Refusal :=
  if s.halted then .fault .haltedAtBreakpoint else finishStep s.enblPending s.runInstruction

/-- The state with the instruction of bits `w` placed where `step` fetches next. -/
def State.withFetchWord (s : State) (nbits w : Nat) : State := s.placeInstr nbits w

end Sys2Proof.Machine
end

