-- ==== Sys2Proof/Safety.lean ====
section
/-! DEFINITION. What a sound state is: the memories in canonical form and inside the physical space, and every reserved
register bit as the spec says it reads. After it, the terms the statements use for what an instruction leaves. -/

namespace Sys2Proof.Machine

/-- A memory in canonical form with no cell outside the 20-bit physical space (20_memory.md R100, R116). -/
def memoryOk (m : Memory) : Prop := m.wf = true ∧ m.below 2097152 = true

/-- A page register with its reserved bits 0, and AL 0 where there is no lock (10_state.md R54, D24). -/
def pageRegisterOk (c : Config) (w : Word) : Prop :=
  w &&& 0x0700#16 = 0#16 ∧
    match c.mmu with
    | some m => m.hasLock = false → w &&& 0xF000#16 = 0#16
    | none => True

/-- All page registers of a set. -/
def pageRegistersOk (c : Config) (v : Vector Word 256) : Prop := ∀ i : Fin 256, pageRegisterOk c v[i]

/-- The invariant of the machine: canonical memories, FT bit 12 and MFSR bits 4 to 10 zero (93_implementation_defined.md
U10; the illegal instruction bit is another one), page registers with their reserved bits zero. -/
def State.Inv (s : State) : Prop :=
  memoryOk s.mem ∧ memoryOk s.rom ∧ s.cfg.ftIllegalInstr ≠ 12#4 ∧ s.ft &&& 0x0008#16 = 0#16 ∧ s.mfsr &&& 0x0FE0#16 = 0#16 ∧
    pageRegistersOk s.cfg s.ctl.iPage ∧ pageRegistersOk s.cfg s.ctl.oPage

/-! ### Registers, condition status and the rest of the state after an instruction -/

/-- The registers `f` with `v` in R`r`. -/
def set1 (f : Reg → Word) (r : Reg) (v : Word) : Reg → Word := fun q => if q = r then v else f q

/-- The registers `f` with `hi` in R`r` and `lo` in the next one, modulo 16. -/
def set2 (f : Reg → Word) (r : Reg) (hi lo : Word) : Reg → Word :=
  fun q => if q = r then hi else if q = r + 1 then lo else f q

/-- The registers `f` with three words from R`r` on, modulo 16. -/
def set3 (f : Reg → Word) (r : Reg) (w0 w1 w2 : Word) : Reg → Word :=
  fun q => if q = r then w0 else if q = r + 1 then w1 else if q = r + 2 then w2 else f q

/-- The registers `f` with a 32-bit value in a pair, most significant half first. -/
def setLong (f : Reg → Word) (r : Reg) (v : Long) : Reg → Word :=
  set2 f r (BitVec.ofNat 16 (v.toNat / 65536)) (BitVec.ofNat 16 v.toNat)

/-- The registers `f` with a 48-bit value in three registers, most significant word first. -/
def setExt (f : Reg → Word) (r : Reg) (v : Ext) : Reg → Word :=
  set3 f r (BitVec.ofNat 16 (v.toNat / 4294967296)) (BitVec.ofNat 16 (v.toNat / 65536)) (BitVec.ofNat 16 v.toNat)

/-- The condition status of a signed number with a carry bit: C, then P, Z or N (10_state.md R41, R42). -/
def signCs (carry : Bool) (i : Int) : BitVec 4 :=
  (if carry then 0b1000#4 else 0b0000#4) + (if i = 0 then 0b0010#4 else if i < 0 then 0b0001#4 else 0b0100#4)

/-- `s` after an instruction that leaves the general registers `f` and the condition status `cs`, requests the
interrupts `m` (a request releases what an SPI holds back) and goes on at `ic`. Nothing else is changed. -/
def State.after (s : State) (f : Reg → Word) (cs : BitVec 4) (m ic : Word) : State :=
  { s with
    regs := Vector.ofFn fun k => f (BitVec.ofFin k)
    sw := (cs ++ s.sw.extractLsb' 0 12 : BitVec (4 + 12))
    pi := s.pi ||| m
    spiHold := releaseHold m s.spiHold
    ic := ic }

/-- PI bit 4, fixed point overflow, if the exact result is not representable in `w` bits. -/
def overflow4 (w : Nat) (exact : Int) : Word :=
  if exact < -2 ^ (w - 1) ∨ 2 ^ (w - 1) ≤ exact then 0x0800#16 else 0#16

/-- The PI bits 3 and 6 of a floating point result. -/
def floatRequests (r : FloatResult) : Word :=
  (if r.overflow then 0x1000#16 else 0#16) ||| (if r.underflow then 0x0200#16 else 0#16)

/-- `s` after a floating point result in a pair. -/
def State.afterFloat (s : State) (ra : Reg) (r : FloatResult) (ic : Word) : State :=
  s.after (setLong s.reg ra (pack24 r.value)) (signCs false (pack24 r.value).toInt) (floatRequests r) ic

/-- `s` after an extended floating point result. -/
def State.afterExtended (s : State) (ra : Reg) (r : FloatResult) (ic : Word) : State :=
  s.after (setExt s.reg ra (pack40 r.value)) (signCs false (pack40 r.value).toInt) (floatRequests r) ic

/-- A number that the algorithms are meant for: normalized, or with a zero mantissa (48_float.md R654). -/
def Unpacked.normalOrZero (w : Nat) (u : Unpacked) : Prop := u.m = 0 ∨ 2 ^ (w - 2) ≤ u.m ∨ u.m < -2 ^ (w - 2)

/-- Mantissa and exponent fit their fields (R650). -/
def Unpacked.inRange (w : Nat) (u : Unpacked) : Prop :=
  -2 ^ (w - 1) ≤ u.m ∧ u.m < 2 ^ (w - 1) ∧ -128 ≤ u.e ∧ u.e ≤ 127

/-- The number a mantissa of `w` bits and an exponent stand for: `m / 2^(w - 1) * 2^e` (48_float.md R650). -/
def Unpacked.value (w : Nat) (u : Unpacked) : ℚ := (u.m : ℚ) / 2 ^ (w - 1) * (2 : ℚ) ^ u.e

/-- The condition status of a comparison of two exact numbers (48_float.md R700). -/
def compareRat (a b : ℚ) : BitVec 4 := if a = b then 0b0010#4 else if a < b then 0b0001#4 else 0b0100#4

/-- The integer portion of an exact number, truncated toward zero (48_float.md R694, R696). -/
def integerPortion (x : ℚ) : Int := if 0 ≤ x then ⌊x⌋ else ⌈x⌉

/-! ### Terms of single families -/

/-- The CS of a test of bit `n`: Z where the bit is 0, N where bit 0 is 1, P where another bit is 1 (R330). -/
def bitCs (n : Nat) (w : Word) : BitVec 4 :=
  if w.getLsbD (15 - n) then (if n = 0 then 0b0001#4 else 0b0100#4) else 0b0010#4

/-- A left shift by `c` changes the sign bit at some step. -/
def signChanges {w : Nat} (v : BitVec w) (c : Nat) : Bool := (List.range (c + 1)).any fun k => (v <<< k).msb != v.msb

/-- `q` and `r` are the quotient truncated toward zero and the remainder of `a` by `b`: `a = q * b + r`, the remainder
smaller than the divisor and, if not zero, of the sign of the dividend (R611, R620). -/
def Divides (a b q r : Int) : Prop := a = q * b + r ∧ |r| < |b| ∧ (r = 0 ∨ (0 < r ↔ 0 < a))

/-- SW after it is loaded with `v`: `v` itself where its reserved bits are zero, else `v` but for the reserved bits, which
are any value (10_state.md R46, entry 10). -/
def loadedSw (v sw : Word) : Prop := (v &&& 0x0F00#16 = 0#16 → sw = v) ∧ sw &&& 0xF0FF#16 = v &&& 0xF0FF#16

/-! ### Memory after an instruction -/

/-- `t` is `s` with the word `w` at the physical address `pa`, memory in canonical form and every other byte as before. -/
def Written (s : State) (pa : Nat) (w : Word) (t : State) : Prop :=
  ∃ m : Memory, t = { s with mem := m } ∧ m.wf = true ∧
    ∀ a, m.get a = if a = 2 * pa then Word.upper w else if a = 2 * pa + 1 then Word.lower w else s.mem.get a

/-- `t` is `s` once the words `ws` are written at their physical addresses one after the other, each by a word reference
of its own (before which DMA may come, 20_memory.md R145), and no other byte by the CPU. -/
def StoredInTurn (s : State) : List (Nat × Word) → State → Prop
  | [], t => t = s
  | (pa, w) :: rest, t => ∃ u, Written s.turn pa w u ∧ StoredInTurn u rest t

/-- The outcome is what `f` makes of the state that the words `ws` stored from `s` on leave. -/
def Stores (o : Out) (s : State) (ws : List (Nat × Word)) (f : State → State) : Prop :=
  ∃ t : State, StoredInTurn s ws t ∧ o = .next (f t)

/-- `t` is what commands, run one after the other from `s`, leave; `runs a j` is what the command `a` does in place `j`. -/
def RunsInTurn (runs : Nat → Nat → State → State → Prop) : List Nat → Nat → State → State → Prop
  | [], _, s, t => t = s
  | a :: rest, j, s, t => ∃ u, runs a j s u ∧ RunsInTurn runs rest (j + 1) u t

/-- A store of the running instruction at logical address `la` reaches the physical word `pa`: no fault, no refusal. -/
def State.writable (s : State) (la : Word) (pa : Nat) : Prop :=
  groupImplemented s.cfg s.as = true ∧ s.translate .cpu .write s.as (some s.ps) la = .ok pa

/-- `s` after a fault of its own instruction: FT bit `b`, whose mask is `ft`, and PI bit 1 set, MFSR written for a memory
fault where there is one, IC any value, a free value used up (60_exceptions.md R806, entry 5). -/
def State.afterFault (s : State) (ft : Word) (b : FaultBit) (designators : Option Word) (ic : Word) : State :=
  { s with
    ft := s.ft ||| ft
    pi := s.pi ||| 0x4000#16
    spiHold := releaseHold 0x4000#16 s.spiHold
    mfsr := match designators with
      | some w => if s.cfg.hasMfsr then w else s.mfsr
      | none => s.mfsr
    ic := ic
    freeCount := s.freeCount + 1
    raised := some b }

end Sys2Proof.Machine
end

