-- ==== Sys2Proof/Certificates/Slice0/Obligations.lean ====
section
/-! DEFINITION. The statements for the provers. They speak the language of Safety.lean: `State.after` is the whole state
an instruction leaves, `Stores` adds the words it stores. -/

open Sys2Proof Sys2Proof.Machine

/-! ### Bit instructions -/

/-- SBR, RBR, SVBR, RVBR: bit `n`, counted from the most significant end, of one register becomes 1 or 0; CS, PI and
every other register stay; the variable forms take the low four bits of RA, read before RB is written. TBR, TVBR,
TB, TBI: only CS and IC change, CS by the bit tested. -/
def Obligations.RegisterBitsAndTests : Prop :=
  (∀ (s : State) (n : BitVec 4) (ra rb : Reg),
      let k := (s.reg ra).toNat % 16
      exec (.sbr n rb) s =
          .next (s.after (set1 s.reg rb (s.reg rb ||| BitVec.twoPow 16 (15 - n.toNat))) s.cs 0 (s.ic + 1)) ∧
        exec (.rbr n rb) s =
          .next (s.after (set1 s.reg rb (s.reg rb &&& ~~~BitVec.twoPow 16 (15 - n.toNat))) s.cs 0 (s.ic + 1)) ∧
        exec (.svbr ra rb) s =
          .next (s.after (set1 s.reg rb (s.reg rb ||| BitVec.twoPow 16 (15 - k))) s.cs 0 (s.ic + 1)) ∧
        exec (.rvbr ra rb) s =
          .next (s.after (set1 s.reg rb (s.reg rb &&& ~~~BitVec.twoPow 16 (15 - k))) s.cs 0 (s.ic + 1))) ∧
  ∀ (s : State) (n : BitVec 4) (ra rb rx : Reg) (addr p w : Word),
      exec (.tbr n rb) s = .next (s.after s.reg (bitCs n.toNat (s.reg rb)) 0 (s.ic + 1)) ∧
        exec (.tvbr ra rb) s = .next (s.after s.reg (bitCs ((s.reg ra).toNat % 16) (s.reg rb)) 0 (s.ic + 1)) ∧
        (s.read (s.daLong addr rx) = .ok w →
          exec (.tb n rx addr) s = .next ((s.turns 1).after s.reg (bitCs n.toNat w) 0 (s.ic + 2))) ∧
        (s.read (s.daLong addr rx) = .ok p → (s.turns 1).read p = .ok w →
          exec (.tbi n rx addr) s = .next ((s.turns 2).after s.reg (bitCs n.toNat w) 0 (s.ic + 2)))

/-- SB, RB, SBI, RBI, TSB: the word at the derived address is rewritten with one bit changed, and no other byte of
memory, no register and no interrupt bit; CS changes in TSB only. The read and the write of TSB are one reference,
with no DMA between them; those of the others are two. -/
def Obligations.MemoryBitWrites : Prop :=
  ∀ (s : State) (n : BitVec 4) (rx : Reg) (addr p w : Word) (pa : Nat), s.mem.wf = true →
    let one := w ||| BitVec.twoPow 16 (15 - n.toNat)
    let zero := w &&& ~~~BitVec.twoPow 16 (15 - n.toNat)
    let ends (t : State) : State := t.after s.reg s.cs 0 (s.ic + 2)
    (s.read (s.daLong addr rx) = .ok w → s.writable (s.daLong addr rx) pa →
      Stores (exec (.sb n rx addr) s) (s.turns 1) [(pa, one)] ends ∧
        Stores (exec (.rb n rx addr) s) (s.turns 1) [(pa, zero)] ends ∧
        ∃ u, Written (s.turns 1) pa one u ∧
          exec (.tsb n rx addr) s = .next (u.after s.reg (bitCs n.toNat w) 0 (s.ic + 2))) ∧
      (s.read (s.daLong addr rx) = .ok p → (s.turns 1).read p = .ok w → s.writable p pa →
        Stores (exec (.sbi n rx addr) s) (s.turns 2) [(pa, one)] ends ∧
          Stores (exec (.rbi n rx addr) s) (s.turns 2) [(pa, zero)] ends)

/-! ### Shifts -/

/-- The eight shifts with the count in the instruction, as arithmetic on the shifted value: left is a product, right a
quotient rounded down (arithmetic on the signed value), cyclic a rotation. CS is the sign of the result, PI stays. -/
def Obligations.CountedShifts : Prop :=
  ∀ (s : State) (n : Nat) (rb : Reg),
    let v := s.reg rb
    let d := s.pair rb
    let one (r : Word) : Out := .next (s.after (set1 s.reg rb r) (signCs false r.toInt) 0 (s.ic + 1))
    let two (r : Long) : Out := .next (s.after (setLong s.reg rb r) (signCs false r.toInt) 0 (s.ic + 1))
    1 ≤ n → n ≤ 16 →
      exec (.sll n rb) s = one (BitVec.ofNat 16 (v.toNat * 2 ^ n)) ∧
        exec (.srl n rb) s = one (BitVec.ofNat 16 (v.toNat / 2 ^ n)) ∧
        exec (.sra n rb) s = one (BitVec.ofInt 16 (v.toInt / 2 ^ n)) ∧
        exec (.slc n rb) s = one (v.rotateLeft n) ∧
        exec (.dsll n rb) s = two (BitVec.ofNat 32 (d.toNat * 2 ^ n)) ∧
        exec (.dsrl n rb) s = two (BitVec.ofNat 32 (d.toNat / 2 ^ n)) ∧
        exec (.dsra n rb) s = two (BitVec.ofInt 32 (d.toInt / 2 ^ n)) ∧
        exec (.dslc n rb) s = two (d.rotateLeft n)

/-- The six shifts with the count in RB: a positive count shifts left, a negative one right, a count past the width
requests interrupt 4 and shifts nothing; the arithmetic shifts also request it when a left shift changes the sign. -/
def Obligations.RegisterCountShifts : Prop :=
  ∀ (s : State) (ra rb : Reg),
    let v := s.reg ra
    let d := s.pair ra
    let c := (s.reg rb).toInt
    let big (l : Int) (r : Bool) : Word := if l < c ∨ c < -l ∨ r = true then 0x0800#16 else 0#16
    let one (m : Word) (left right : Word) : Out :=
      let r := if 16 < c ∨ c < -16 then v else if 0 < c then left else right
      .next (s.after (set1 s.reg ra r) (signCs false r.toInt) m (s.ic + 1))
    let two (m : Word) (left right : Long) : Out :=
      let r := if 32 < c ∨ c < -32 then d else if 0 < c then left else right
      .next (s.after (setLong s.reg ra r) (signCs false r.toInt) m (s.ic + 1))
    let l := c.toNat
    let r := (-c).toNat
    exec (.slr ra rb) s = one (big 16 false) (BitVec.ofNat 16 (v.toNat * 2 ^ l)) (BitVec.ofNat 16 (v.toNat / 2 ^ r)) ∧
      exec (.sar ra rb) s =
        one (big 16 (signChanges v l)) (BitVec.ofNat 16 (v.toNat * 2 ^ l)) (BitVec.ofInt 16 (v.toInt / 2 ^ r)) ∧
      exec (.scr ra rb) s = one (big 16 false) (v.rotateLeft l) (v.rotateRight r) ∧
      exec (.dslr ra rb) s = two (big 32 false) (BitVec.ofNat 32 (d.toNat * 2 ^ l)) (BitVec.ofNat 32 (d.toNat / 2 ^ r)) ∧
      exec (.dsar ra rb) s =
        two (big 32 (signChanges d l)) (BitVec.ofNat 32 (d.toNat * 2 ^ l)) (BitVec.ofInt 32 (d.toInt / 2 ^ r)) ∧
      exec (.dscr ra rb) s = two (big 32 false) (d.rotateLeft l) (d.rotateRight r)

/-! ### Jumps, branches and stack linkage -/

/-- The relative branches: BR always, BEZ, BLT, BLE, BGT, BNZ, BGE by the bits P, Z, N of CS (whatever the carry), to
the signed displacement from the branch itself, else to the next word. Nothing but IC changes. -/
def Obligations.RelativeBranches : Prop :=
  ∀ (s : State) (d : BitVec 8),
    let p := s.sw.getLsbD 14
    let z := s.sw.getLsbD 13
    let n := s.sw.getLsbD 12
    let go (b : Bool) : Out :=
      .next (s.after s.reg s.cs 0 (if b then BitVec.ofInt 16 (s.ic.toInt + d.toInt) else s.ic + 1))
    exec (.br d) s = go true ∧ exec (.bez d) s = go z ∧ exec (.blt d) s = go n ∧ exec (.ble d) s = go (z || n) ∧
      exec (.bgt d) s = go p ∧ exec (.bnz d) s = go (p || n) ∧ exec (.bge d) s = go (p || z)

/-- JC, JCI, JS, SOJ: the mask of JC and JCI is compared with CS bit for bit, 7 and F always jump; a JCI that does not
jump reads no pointer; JS leaves the return address in RA, its target formed before; SOJ counts RA down with no
overflow and jumps while it is not zero. SJS stores the return address at the new top of the stack, one below the
old RA, and jumps to an address formed with the old registers; URS takes IC from the top of the stack and steps RA
up. -/
def Obligations.JumpsAndLinkage : Prop :=
  (∀ (s : State) (c : BitVec 4) (ra rx : Reg) (addr p : Word),
      let da : Word := addr + (if rx = 0#4 then 0#16 else s.reg rx)
      let take := c = 0x7#4 ∨ c = 0xF#4 ∨ ∃ k, k < 4 ∧ c.getLsbD k = true ∧ s.sw.getLsbD (12 + k) = true
      let left : Word := s.reg ra - 1
      let goes (t : State) (ic : Word) : Out := .next (t.after s.reg s.cs 0 ic)
      (take → exec (.jc c rx addr) s = goes s da) ∧
        (¬take → exec (.jc c rx addr) s = goes s (s.ic + 2) ∧ exec (.jci c rx addr) s = goes s (s.ic + 2)) ∧
        (take → s.read da = .ok p → exec (.jci c rx addr) s = goes (s.turns 1) p) ∧
        exec (.js ra rx addr) s = .next (s.after (set1 s.reg ra (s.ic + 2)) s.cs 0 da) ∧
        exec (.soj ra rx addr) s =
          .next (s.after (set1 s.reg ra left) (signCs false left.toInt) 0 (if left = 0#16 then s.ic + 2 else da))) ∧
  ∀ (s : State) (ra rx : Reg) (addr t : Word) (pa : Nat),
      (s.mem.wf = true → s.writable (s.reg ra - 1) pa →
          Stores (exec (.sjs ra rx addr) s) s [(pa, s.ic + 2)] fun t =>
            t.after (set1 s.reg ra (s.reg ra - 1)) s.cs 0 (addr + (if rx = 0#4 then 0#16 else s.reg rx))) ∧
        (s.read (s.reg ra) = .ok t →
          exec (.urs ra) s = .next ((s.turns 1).after (set1 s.reg ra (s.reg ra + 1)) s.cs 0 t))

/-! ### Loads -/

/-- The single precision loads: the operand of each addressing mode goes to RA (R2 for the base forms), CS is its sign. -/
def Obligations.SingleLoads : Prop :=
  ∀ (s : State) (ra rb br rx : Reg) (n : Nat) (addr p v : Word) (dspl : BitVec 8),
    let loads (k : Nat) (r : Reg) (x len : Word) : Out :=
      .next ((s.turns k).after (set1 s.reg r x) (signCs false x.toInt) 0 (s.ic + len))
    exec (.lr ra rb) s = loads 0 ra (s.reg rb) 1 ∧
      exec (.lim ra rx addr) s = loads 0 ra (s.daLong addr rx) 2 ∧
      (1 ≤ n → n ≤ 16 →
        exec (.lisp ra n) s = .next (s.after (set1 s.reg ra (BitVec.ofNat 16 n)) 0b0100#4 0 (s.ic + 1)) ∧
          exec (.lisn ra n) s = .next (s.after (set1 s.reg ra (BitVec.ofInt 16 (-n))) 0b0001#4 0 (s.ic + 1))) ∧
      (s.read (s.daBase br dspl) = .ok v → exec (.lb br dspl) s = loads 1 2 v 1) ∧
      (s.read (s.daIndexed br rx) = .ok v → exec (.lbx br rx) s = loads 1 2 v 1) ∧
      (s.read (s.daLong addr rx) = .ok v → exec (.l ra rx addr) s = loads 1 ra v 2) ∧
      (s.read (s.daLong addr rx) = .ok p → (s.turns 1).read p = .ok v → exec (.li ra rx addr) s = loads 2 ra v 2)

/-- The double precision loads: the words at the derived address and the next one, or a register pair read whole before
it is written, go to RA, RA+1 (R0, R1 for the base forms), CS is the sign of the 32-bit number. Each word is read in
its own turn: a DMA store between the two shows in the second only. -/
def Obligations.DoubleLoads : Prop :=
  ∀ (s : State) (ra rb br rx : Reg) (addr p hi lo : Word) (dspl : BitVec 8),
    let loads (k : Nat) (r : Reg) (a b len : Word) : Out :=
      .next ((s.turns k).after (set2 s.reg r a b) (signCs false (a ++ b : BitVec (16 + 16)).toInt) 0 (s.ic + len))
    exec (.dlr ra rb) s = loads 0 ra (s.reg rb) (s.reg (rb + 1)) 1 ∧
      (s.read (s.daBase br dspl) = .ok hi → (s.turns 1).read (s.daBase br dspl + 1) = .ok lo →
        exec (.dlb br dspl) s = loads 2 0 hi lo 1) ∧
      (s.read (s.daIndexed br rx) = .ok hi → (s.turns 1).read (s.daIndexed br rx + 1) = .ok lo →
        exec (.dlbx br rx) s = loads 2 0 hi lo 1) ∧
      (s.read (s.daLong addr rx) = .ok hi → (s.turns 1).read (s.daLong addr rx + 1) = .ok lo →
        exec (.dl ra rx addr) s = loads 2 ra hi lo 2) ∧
      (s.read (s.daLong addr rx) = .ok p → (s.turns 1).read p = .ok hi → (s.turns 2).read (p + 1) = .ok lo →
        exec (.dli ra rx addr) s = loads 3 ra hi lo 2)

/-- EFL loads three words, CS from the 40-bit mantissa (the exponent byte takes no part). LUB, LLB, LUBI, LLBI put one
byte of a word in the lower byte of RA, CS from the whole register. -/
def Obligations.ExtendedAndByteLoads : Prop :=
  ∀ (s : State) (ra rx : Reg) (addr p m w0 w1 w2 : Word),
    let byte (k b : Nat) : Out :=
      let v := BitVec.ofNat 16 ((s.reg ra).toNat / 256 * 256 + b)
      .next ((s.turns k).after (set1 s.reg ra v) (signCs false v.toInt) 0 (s.ic + 2))
    (s.read (s.daLong addr rx) = .ok w0 → (s.turns 1).read (s.daLong addr rx + 1) = .ok w1 →
        (s.turns 2).read (s.daLong addr rx + 2) = .ok w2 →
        exec (.efl ra rx addr) s =
          .next ((s.turns 3).after (set3 s.reg ra w0 w1 w2)
            (signCs false (w0 ++ Word.upper w1 ++ w2 : BitVec (16 + 8 + 16)).toInt) 0 (s.ic + 2))) ∧
      (s.read (s.daLong addr rx) = .ok m →
        exec (.lub ra rx addr) s = byte 1 (m.toNat / 256) ∧ exec (.llb ra rx addr) s = byte 1 (m.toNat % 256)) ∧
      (s.read (s.daLong addr rx) = .ok p → (s.turns 1).read p = .ok m →
        exec (.lubi ra rx addr) s = byte 2 (m.toNat / 256) ∧ exec (.llbi ra rx addr) s = byte 2 (m.toNat % 256))

/-- LM loads R0 to RN from consecutive words, the address formed once; a word that faults leaves the registers before it
loaded and the others as they were. POPM loads RA to RB, counted modulo 16, from the words R15 points at upward; R15
takes no word, and makes no reference, but counts, and ends past the last one; a word that faults leaves the
registers before it loaded and R15 at that word (R806, R887; entry 39). CS stays. -/
def Obligations.MultipleLoads : Prop :=
  ∀ (s : State) (n : BitVec 4) (ra rb rx : Reg) (addr : Word) (w : Nat → Word),
    let before (k : Nat) : Nat := if (15#4 - ra).toNat < k then k - 1 else k
    let loaded (k : Nat) : Reg → Word := fun q => if q.toNat < k then w q.toNat else s.reg q
    ((∀ k, k ≤ n.toNat → (s.turns k).read (s.daLong addr rx + BitVec.ofNat 16 k) = .ok (w k)) →
        exec (.lm n rx addr) s = .next ((s.turns (n.toNat + 1)).after (loaded (n.toNat + 1)) s.cs 0 (s.ic + 2))) ∧
      (∀ (j : Nat) (f : FaultReq), j ≤ n.toNat →
        (∀ k, k < j → (s.turns k).read (s.daLong addr rx + BitVec.ofNat 16 k) = .ok (w k)) →
        (s.turns j).read (s.daLong addr rx + BitVec.ofNat 16 j) = .error (.fault f) →
          ∃ ic : Word, exec (.lm n rx addr) s =
            .next (((s.turns (j + 1)).after (loaded j) s.cs 0 s.ic).afterFault
              (bitMask (f.bit.number s.cfg)) f.bit f.designators ic)) ∧
      ((∀ k, k ≤ (rb - ra).toNat → ra + BitVec.ofNat 4 k ≠ 15#4 →
          (s.turns (before k)).read (s.reg 15 + BitVec.ofNat 16 k) = .ok (w k)) →
        exec (.popm ra rb) s =
          .next ((s.turns (before ((rb - ra).toNat + 1))).after
            (fun q =>
              if q = 15#4 then s.reg 15 + BitVec.ofNat 16 ((rb - ra).toNat + 1)
              else if (q - ra).toNat ≤ (rb - ra).toNat then w (q - ra).toNat else s.reg q)
            s.cs 0 (s.ic + 1))) ∧
      (∀ (j : Nat) (f : FaultReq), j ≤ (rb - ra).toNat → ra + BitVec.ofNat 4 j ≠ 15#4 →
        (∀ k, k < j → ra + BitVec.ofNat 4 k ≠ 15#4 →
          (s.turns (before k)).read (s.reg 15 + BitVec.ofNat 16 k) = .ok (w k)) →
        (s.turns (before j)).read (s.reg 15 + BitVec.ofNat 16 j) = .error (.fault f) →
          ∃ ic : Word, exec (.popm ra rb) s =
            .next (((s.turns (before j + 1)).after
              (fun q =>
                if q = 15#4 then s.reg 15 + BitVec.ofNat 16 j
                else if (q - ra).toNat < j then w (q - ra).toNat else s.reg q)
              s.cs 0 s.ic).afterFault (bitMask (f.bit.number s.cfg)) f.bit f.designators ic))

/-! ### Stores -/

/-- The single precision stores and the stores of a constant: one word at the derived address, every other byte and
every register, CS and PI as before. -/
def Obligations.SingleStores : Prop :=
  ∀ (s : State) (n : BitVec 4) (ra br rx : Reg) (addr p : Word) (dspl : BitVec 8) (pa : Nat), s.mem.wf = true →
    let ends (len : Word) (t : State) : State := t.after s.reg s.cs 0 (s.ic + len)
    (s.writable (s.daLong addr rx) pa →
        Stores (exec (.st ra rx addr) s) s [(pa, s.reg ra)] (ends 2) ∧
          Stores (exec (.stc n rx addr) s) s [(pa, BitVec.ofNat 16 n.toNat)] (ends 2)) ∧
      (s.writable (s.daBase br dspl) pa → Stores (exec (.stb br dspl) s) s [(pa, s.reg 2)] (ends 1)) ∧
      (s.writable (s.daIndexed br rx) pa → Stores (exec (.stbx br rx) s) s [(pa, s.reg 2)] (ends 1)) ∧
      (s.read (s.daLong addr rx) = .ok p → s.writable p pa →
        Stores (exec (.sti ra rx addr) s) (s.turns 1) [(pa, s.reg ra)] (ends 2) ∧
          Stores (exec (.stci n rx addr) s) (s.turns 1) [(pa, BitVec.ofNat 16 n.toNat)] (ends 2))

/-- The double and extended stores: RA to the derived address, RA+1 (and RA+2) to the following ones, modulo 65536, each
word a reference of its own. -/
def Obligations.DoubleStores : Prop :=
  ∀ (s : State) (ra br rx : Reg) (addr p : Word) (dspl : BitVec 8) (q0 q1 q2 : Nat), s.mem.wf = true →
    let ends (len : Word) (t : State) : State := t.after s.reg s.cs 0 (s.ic + len)
    (s.writable (s.daLong addr rx) q0 → s.writable (s.daLong addr rx + 1) q1 →
        Stores (exec (.dst ra rx addr) s) s [(q0, s.reg ra), (q1, s.reg (ra + 1))] (ends 2)) ∧
      (s.writable (s.daBase br dspl) q0 → s.writable (s.daBase br dspl + 1) q1 →
        Stores (exec (.dstb br dspl) s) s [(q0, s.reg 0), (q1, s.reg 1)] (ends 1)) ∧
      (s.writable (s.daIndexed br rx) q0 → s.writable (s.daIndexed br rx + 1) q1 →
        Stores (exec (.dstx br rx) s) s [(q0, s.reg 0), (q1, s.reg 1)] (ends 1)) ∧
      (s.read (s.daLong addr rx) = .ok p → s.writable p q0 → s.writable (p + 1) q1 →
        Stores (exec (.dsti ra rx addr) s) (s.turns 1) [(q0, s.reg ra), (q1, s.reg (ra + 1))] (ends 2)) ∧
      (s.writable (s.daLong addr rx) q0 → s.writable (s.daLong addr rx + 1) q1 → s.writable (s.daLong addr rx + 2) q2 →
        Stores (exec (.efst ra rx addr) s) s [(q0, s.reg ra), (q1, s.reg (ra + 1)), (q2, s.reg (ra + 2))] (ends 2))

/-- SRM changes the bits of a word that the mask in RA+1 selects; STUB, STLB, SUBI, SLBI change one byte of a word to
the lower byte of RA. -/
def Obligations.PartialStores : Prop :=
  ∀ (s : State) (ra rx : Reg) (addr p w : Word) (pa : Nat), s.mem.wf = true →
    let ends (t : State) : State := t.after s.reg s.cs 0 (s.ic + 2)
    let upper := BitVec.ofNat 16 ((s.reg ra).toNat % 256 * 256 + w.toNat % 256)
    let lower := BitVec.ofNat 16 (w.toNat / 256 * 256 + (s.reg ra).toNat % 256)
    (s.read (s.daLong addr rx) = .ok w → s.writable (s.daLong addr rx) pa →
        Stores (exec (.srm ra rx addr) s) (s.turns 1) [(pa, w ^^^ ((w ^^^ s.reg ra) &&& s.reg (ra + 1)))] ends ∧
          Stores (exec (.stub ra rx addr) s) (s.turns 1) [(pa, upper)] ends ∧
          Stores (exec (.stlb ra rx addr) s) (s.turns 1) [(pa, lower)] ends) ∧
      (s.read (s.daLong addr rx) = .ok p → (s.turns 1).read p = .ok w → s.writable p pa →
        Stores (exec (.subi ra rx addr) s) (s.turns 2) [(pa, upper)] ends ∧
          Stores (exec (.slbi ra rx addr) s) (s.turns 2) [(pa, lower)] ends)

/-- STM stores R0 to RN at consecutive addresses. PSHM stores RB down to RA, counted modulo 16, downward from below the
word R15 points at, and leaves R15 at the last one; the word stored for R15 itself is any value (R510's draw, entry
15). CS stays. -/
def Obligations.MultipleStores : Prop :=
  ∀ (s : State) (n : BitVec 4) (ra rb rx : Reg) (addr : Word) (pa : Nat → Nat), s.mem.wf = true →
    ((∀ k, k ≤ n.toNat → s.writable (s.daLong addr rx + BitVec.ofNat 16 k) (pa k)) →
        Stores (exec (.stm n rx addr) s) s
          ((List.range (n.toNat + 1)).map fun k => (pa k, s.reg (BitVec.ofNat 4 k)))
          fun t => t.after s.reg s.cs 0 (s.ic + 2)) ∧
      ((∀ k, k ≤ (rb - ra).toNat → s.writable (s.reg 15 - BitVec.ofNat 16 (k + 1)) (pa k)) →
        ∃ x : Word,
          Stores (exec (.pshm ra rb) s) (s.spend 1)
            ((List.range ((rb - ra).toNat + 1)).map fun k =>
              (pa k, if rb - BitVec.ofNat 4 k = 15#4 then x else s.reg (rb - BitVec.ofNat 4 k)))
            fun t => t.after (set1 s.reg 15 (s.reg 15 - BitVec.ofNat 16 ((rb - ra).toNat + 1))) s.cs 0 (s.ic + 1))

/-- MOV moves one word each step: with a count of zero nothing, and IC goes past the MOV; else the word at RB to the
address in RA and all three registers are stepped. With words left IC is still at the MOV; after the last one it is
past it, and `resumeIc` keeps the address of the MOV, which an interrupt taken right then saves (R495, R496; O53; that
each transfer fetches the MOV again is the model's, entry 41). Where RA, RA+1 and RB are not three registers the word moves and the registers
RA, RA+1 are then any values (the model's reading of R496's draw, entry 14). -/
def Obligations.MoveMultiple : Prop :=
  ∀ (s : State) (ra rb : Reg) (w : Word) (pa : Nat), s.mem.wf = true →
    let count := s.reg (ra + 1)
    let ends (t : State) (f : Reg → Word) (left : Word) : State :=
      if left = 0#16 then { t.after f s.cs 0 (s.ic + 1) with resumeIc := some s.ic } else t.after f s.cs 0 s.ic
    (count = 0#16 → exec (.mov ra rb) s = .next (s.after s.reg s.cs 0 (s.ic + 1))) ∧
      (count ≠ 0#16 → s.read (s.reg rb) = .ok w → s.writable (s.reg ra) pa →
        (rb ≠ ra → rb ≠ ra + 1 →
          Stores (exec (.mov ra rb) s) (s.turns 1) [(pa, w)] fun t =>
            ends t (set1 (set2 s.reg ra (s.reg ra + 1) (count - 1)) rb (s.reg rb + 1)) (count - 1)) ∧
        (rb = ra ∨ rb = ra + 1 →
          ∃ x y : Word,
            Stores (exec (.mov ra rb) s) (s.turns 1) [(pa, w)] fun t => (ends t (set2 s.reg ra x y) y).spend 2))

/-! ### Integer arithmetic -/

/-- The six single precision additions and the six subtractions: RA plus or minus the operand modulo 65536, the carry
out in CS with the sign (for a subtraction 1 exactly when there is no borrow), interrupt 4 exactly when the signed
result is not representable; the result is written either way. -/
def Obligations.SingleAddSubtract : Prop :=
  (∀ (s : State) (ra rb br rx : Reg) (n : Nat) (addr v : Word) (dspl : BitVec 8),
      let adds (k : Nat) (r : Reg) (x len : Word) : Out :=
        let sum := s.reg r + x
        .next ((s.turns k).after (set1 s.reg r sum) (signCs (decide (65536 ≤ (s.reg r).toNat + x.toNat)) sum.toInt)
          (overflow4 16 ((s.reg r).toInt + x.toInt)) (s.ic + len))
      exec (.ar ra rb) s = adds 0 ra (s.reg rb) 1 ∧
        exec (.aisp ra n) s = adds 0 ra (BitVec.ofNat 16 n) 1 ∧
        exec (.aim ra v) s = adds 0 ra v 2 ∧
        (s.read (s.daBase br dspl) = .ok v → exec (.ab br dspl) s = adds 1 2 v 1) ∧
        (s.read (s.daIndexed br rx) = .ok v → exec (.abx br rx) s = adds 1 2 v 1) ∧
        (s.read (s.daLong addr rx) = .ok v → exec (.a ra rx addr) s = adds 1 ra v 2)) ∧
  ∀ (s : State) (ra rb br rx : Reg) (n : Nat) (addr v : Word) (dspl : BitVec 8),
      let subs (k : Nat) (r : Reg) (x len : Word) : Out :=
        let d := s.reg r - x
        .next ((s.turns k).after (set1 s.reg r d) (signCs (decide (x.toNat ≤ (s.reg r).toNat)) d.toInt)
          (overflow4 16 ((s.reg r).toInt - x.toInt)) (s.ic + len))
      exec (.sr ra rb) s = subs 0 ra (s.reg rb) 1 ∧
        exec (.sisp ra n) s = subs 0 ra (BitVec.ofNat 16 n) 1 ∧
        exec (.sim ra v) s = subs 0 ra v 2 ∧
        (s.read (s.daBase br dspl) = .ok v → exec (.sbb br dspl) s = subs 1 2 v 1) ∧
        (s.read (s.daIndexed br rx) = .ok v → exec (.sbbx br rx) s = subs 1 2 v 1) ∧
        (s.read (s.daLong addr rx) = .ok v → exec (.s ra rx addr) s = subs 1 ra v 2)

/-- The double precision additions and subtractions, on the 32-bit number in RA, RA+1. -/
def Obligations.DoubleAddSubtract : Prop :=
  ∀ (s : State) (ra rb rx : Reg) (addr hi lo : Word),
    let d : Long := s.reg ra ++ s.reg (ra + 1)
    let adds (k : Nat) (x : Long) (len : Word) : Out :=
      .next ((s.turns k).after (setLong s.reg ra (d + x))
        (signCs (decide (4294967296 ≤ d.toNat + x.toNat)) (d + x).toInt)
        (overflow4 32 (d.toInt + x.toInt)) (s.ic + len))
    let subs (k : Nat) (x : Long) (len : Word) : Out :=
      .next ((s.turns k).after (setLong s.reg ra (d - x)) (signCs (decide (x.toNat ≤ d.toNat)) (d - x).toInt)
        (overflow4 32 (d.toInt - x.toInt)) (s.ic + len))
    exec (.dar ra rb) s = adds 0 (s.reg rb ++ s.reg (rb + 1)) 1 ∧
      exec (.dsr ra rb) s = subs 0 (s.reg rb ++ s.reg (rb + 1)) 1 ∧
      (s.read (s.daLong addr rx) = .ok hi → (s.turns 1).read (s.daLong addr rx + 1) = .ok lo →
        exec (.da ra rx addr) s = adds 2 (hi ++ lo) 2 ∧ exec (.ds ra rx addr) s = subs 2 (hi ++ lo) 2)

/-- INCM and DECM: the memory word plus or minus N is stored even on overflow; CS with carry and interrupt 4 from it; no
register changes. -/
def Obligations.MemoryIncrements : Prop :=
  ∀ (s : State) (n : Nat) (rx : Reg) (addr w : Word) (pa : Nat), s.mem.wf = true → 1 ≤ n → n ≤ 16 →
    s.read (s.daLong addr rx) = .ok w → s.writable (s.daLong addr rx) pa →
    let sum := w + BitVec.ofNat 16 n
    let diff := w - BitVec.ofNat 16 n
    (Stores (exec (.incm n rx addr) s) (s.turns 1) [(pa, sum)] fun t =>
        t.after s.reg (signCs (decide (65536 ≤ w.toNat + n)) sum.toInt)
          (if w.toInt + n ≤ 32767 then 0#16 else 0x0800#16) (s.ic + 2)) ∧
      Stores (exec (.decm n rx addr) s) (s.turns 1) [(pa, diff)] fun t =>
        t.after s.reg (signCs (decide (n ≤ w.toNat)) diff.toInt)
          (if -32768 ≤ w.toInt - n then 0#16 else 0x0800#16) (s.ic + 2)

/-- ABS, NEG, DABS, DNEG: the magnitude or the negative of RB (or RB, RB+1); only the most negative number overflows,
and is its own result; CS has no carry. -/
def Obligations.AbsoluteAndNegative : Prop :=
  ∀ (s : State) (ra rb : Reg),
    let d := s.reg rb
    let e : Long := s.reg rb ++ s.reg (rb + 1)
    let one (i : Int) : Out :=
      let v := BitVec.ofInt 16 i
      .next (s.after (set1 s.reg ra v) (signCs false v.toInt) (overflow4 16 i) (s.ic + 1))
    let two (i : Int) : Out :=
      let v := BitVec.ofInt 32 i
      .next (s.after (setLong s.reg ra v) (signCs false v.toInt) (overflow4 32 i) (s.ic + 1))
    exec (.abs ra rb) s = one |d.toInt| ∧ exec (.neg ra rb) s = one (-d.toInt) ∧
      exec (.dabs ra rb) s = two |e.toInt| ∧ exec (.dneg ra rb) s = two (-e.toInt)

/-- The multiplies with a product as wide as the operands, MS, MSR, MISP, MISN, MSIM (16 bits), DM, DMR (32 bits): the
low bits of the exact product, interrupt 4 exactly when it is not representable. Those with a 32-bit product, M, MR,
MIM, MB, MBX: the exact signed product in RA, RA+1 (R2, R3 for the base forms), CS its sign, never an overflow. -/
def Obligations.Multiplies : Prop :=
  (∀ (s : State) (ra rb rx : Reg) (n : Nat) (addr v hi lo : Word),
      let d : Long := s.reg ra ++ s.reg (ra + 1)
      let muls (k : Nat) (x len : Word) : Out :=
        let p := (s.reg ra).toInt * x.toInt
        let r := BitVec.ofInt 16 p
        .next ((s.turns k).after (set1 s.reg ra r) (signCs false r.toInt) (overflow4 16 p) (s.ic + len))
      let mull (k : Nat) (x : Long) (len : Word) : Out :=
        let p := d.toInt * x.toInt
        let r := BitVec.ofInt 32 p
        .next ((s.turns k).after (setLong s.reg ra r) (signCs false r.toInt) (overflow4 32 p) (s.ic + len))
      exec (.msr ra rb) s = muls 0 (s.reg rb) 1 ∧
        exec (.misp ra n) s = muls 0 (BitVec.ofNat 16 n) 1 ∧
        exec (.misn ra n) s = muls 0 (BitVec.ofInt 16 (-n)) 1 ∧
        exec (.msim ra v) s = muls 0 v 2 ∧
        exec (.dmr ra rb) s = mull 0 (s.reg rb ++ s.reg (rb + 1)) 1 ∧
        (s.read (s.daLong addr rx) = .ok v → exec (.ms ra rx addr) s = muls 1 v 2) ∧
        (s.read (s.daLong addr rx) = .ok hi → (s.turns 1).read (s.daLong addr rx + 1) = .ok lo →
          exec (.dm ra rx addr) s = mull 2 (hi ++ lo) 2)) ∧
  ∀ (s : State) (ra rb br rx : Reg) (addr v : Word) (dspl : BitVec 8),
      let completes (k : Nat) (i : Instr) (r : Reg) (x len : Word) : Prop :=
        let p : Long := BitVec.ofInt 32 ((s.reg r).toInt * x.toInt)
        p.toInt = (s.reg r).toInt * x.toInt ∧
          exec i s = .next ((s.turns k).after (setLong s.reg r p) (signCs false p.toInt) 0 (s.ic + len))
      completes 0 (.mr ra rb) ra (s.reg rb) 1 ∧ completes 0 (.mim ra v) ra v 2 ∧
        (s.read (s.daBase br dspl) = .ok v → completes 1 (.mb br dspl) 2 v 1) ∧
        (s.read (s.daIndexed br rx) = .ok v → completes 1 (.mbx br rx) 2 v 1) ∧
        (s.read (s.daLong addr rx) = .ok v → completes 1 (.m ra rx addr) ra v 2)

/-- The divides with a single precision divisor, DV, DVR, DISP, DISN, DVIM (16-bit dividend) and D, DR, DB, DBX, DIM
(32-bit dividend). A quotient that fits 16 bits goes to RA and the remainder to RA+1, CS the sign of the quotient. A
divisor of zero or a quotient that does not fit requests interrupt 4 and leaves any values in RA, RA+1 and CS (decision
D10, U11, entry 11). -/
def Obligations.SingleDivides : Prop :=
  ∀ (s : State) (ra rb br rx : Reg) (n : Nat) (addr v : Word) (dspl : BitVec 8) (q r : Int),
    let short (k : Reg) : Int := (s.reg k).toInt
    let long (k : Reg) : Int := (s.reg k ++ s.reg (k + 1) : BitVec (16 + 16)).toInt
    let completes (t : State) (i : Instr) (k : Reg) (a : Int) (x len : Word) : Prop :=
      (Divides a x.toInt q r → -32768 ≤ q → q ≤ 32767 →
        exec i s = .next (t.after (set2 s.reg k (BitVec.ofInt 16 q) (BitVec.ofInt 16 r)) (signCs false q) 0 (s.ic + len))) ∧
      (x = 0#16 ∨ (Divides a x.toInt q r ∧ (q < -32768 ∨ 32767 < q)) →
        ∃ (y z : Word) (cs : BitVec 4),
          exec i s = .next ((t.after (set2 s.reg k y z) cs 0x0800#16 (s.ic + len)).spend 3))
    completes s (.dvr ra rb) ra (short ra) (s.reg rb) 1 ∧
      completes s (.disp ra n) ra (short ra) (BitVec.ofNat 16 n) 1 ∧
      completes s (.disn ra n) ra (short ra) (BitVec.ofInt 16 (-n)) 1 ∧
      completes s (.dvim ra v) ra (short ra) v 2 ∧
      completes s (.dr ra rb) ra (long ra) (s.reg rb) 1 ∧
      completes s (.dim ra v) ra (long ra) v 2 ∧
      (s.read (s.daLong addr rx) = .ok v →
        completes (s.turns 1) (.dv ra rx addr) ra (short ra) v 2 ∧
          completes (s.turns 1) (.d ra rx addr) ra (long ra) v 2) ∧
      (s.read (s.daBase br dspl) = .ok v → completes (s.turns 1) (.db br dspl) 2 (long 2) v 1) ∧
      (s.read (s.daIndexed br rx) = .ok v → completes (s.turns 1) (.dbx br rx) 2 (long 2) v 1)

/-- DD and DDR: the quotient truncated toward zero in RA, RA+1, the remainder lost; a divisor of zero, or the most
negative number divided by minus one, requests interrupt 4 and leaves any value in the pair and in CS (decisions D9 and
D10, U11, entry 11). -/
def Obligations.DoubleDivides : Prop :=
  ∀ (s : State) (ra rb rx : Reg) (addr hi lo : Word) (q r : Int),
    let a : Int := (s.reg ra ++ s.reg (ra + 1) : BitVec (16 + 16)).toInt
    let completes (t : State) (i : Instr) (x : Long) (len : Word) : Prop :=
      (Divides a x.toInt q r → q ≤ 2147483647 →
        exec i s = .next (t.after (setLong s.reg ra (BitVec.ofInt 32 q)) (signCs false q) 0 (s.ic + len))) ∧
      (x = 0#32 ∨ (a = -2147483648 ∧ x = BitVec.allOnes 32) →
        ∃ (y : Long) (cs : BitVec 4),
          exec i s = .next ((t.after (setLong s.reg ra y) cs 0x0800#16 (s.ic + len)).spend 3))
    completes s (.ddr ra rb) (s.reg rb ++ s.reg (rb + 1)) 1 ∧
      (s.read (s.daLong addr rx) = .ok hi → (s.turns 1).read (s.daLong addr rx + 1) = .ok lo →
        completes (s.turns 2) (.dd ra rx addr) (hi ++ lo) 2)

/-! ### Floating point -/

/-- The single precision floating point add, subtract, multiply and divide, every form: for operands that are normalized
or zero the result goes to the accumulator pair, CS and PI bits 3 and 6 from it. It is that of the spec's algorithm
where the parameter FP says so, else some result (decision D8, U7, entry 13). For other operands any number and any
of the two interrupts, CS still from the number (U6, entry 12). -/
def Obligations.FloatArithmetic : Prop :=
  ∀ (s : State) (ra rb br rx : Reg) (addr hi lo : Word) (dspl : BitVec 8),
    let acc (r : Reg) : Unpacked := unpack24 (s.reg r ++ s.reg (r + 1))
    let completes (k : Nat) (f : Unpacked → Unpacked → FloatResult) (i : Instr) (r : Reg) (o : Unpacked) (len : Word) :
        Prop :=
      ((acc r).normalOrZero 24 → o.normalOrZero 24 →
        (s.cfg.fp = .registerTransfer → exec i s = .next ((s.turns k).afterFloat r (f (acc r) o) (s.ic + len))) ∧
          (s.cfg.fp = .implementation → ∃ x, exec i s = .next ((s.turns k).afterFloat r x (s.ic + len)))) ∧
      (¬((acc r).normalOrZero 24 ∧ o.normalOrZero 24) →
        ∃ (v : Long) (m : Word), m &&& ~~~0x1200#16 = 0#16 ∧
          exec i s = .next (((s.turns k).after (setLong s.reg r v) (signCs false v.toInt) m (s.ic + len)).spend 4))
    let o := unpack24 (hi ++ lo)
    completes 0 (fadd 24) (.far ra rb) ra (acc rb) 1 ∧ completes 0 (fsub 24) (.fsr ra rb) ra (acc rb) 1 ∧
      completes 0 (fmul 24) (.fmr ra rb) ra (acc rb) 1 ∧ completes 0 (fdiv 24) (.fdr ra rb) ra (acc rb) 1 ∧
      (s.read (s.daBase br dspl) = .ok hi → (s.turns 1).read (s.daBase br dspl + 1) = .ok lo →
        completes 2 (fadd 24) (.fab br dspl) 0 o 1 ∧ completes 2 (fsub 24) (.fsb br dspl) 0 o 1 ∧
          completes 2 (fmul 24) (.fmb br dspl) 0 o 1 ∧ completes 2 (fdiv 24) (.fdb br dspl) 0 o 1) ∧
      (s.read (s.daIndexed br rx) = .ok hi → (s.turns 1).read (s.daIndexed br rx + 1) = .ok lo →
        completes 2 (fadd 24) (.fabx br rx) 0 o 1 ∧ completes 2 (fsub 24) (.fsbx br rx) 0 o 1 ∧
          completes 2 (fmul 24) (.fmbx br rx) 0 o 1 ∧ completes 2 (fdiv 24) (.fdbx br rx) 0 o 1) ∧
      (s.read (s.daLong addr rx) = .ok hi → (s.turns 1).read (s.daLong addr rx + 1) = .ok lo →
        completes 2 (fadd 24) (.fa ra rx addr) ra o 2 ∧ completes 2 (fsub 24) (.fs ra rx addr) ra o 2 ∧
          completes 2 (fmul 24) (.fm ra rx addr) ra o 2 ∧ completes 2 (fdiv 24) (.fd ra rx addr) ra o 2)

/-- The extended precision floating point add, subtract, multiply and divide, on three registers; FP and other operands
as in single precision (entries 12, 13). -/
def Obligations.ExtendedArithmetic : Prop :=
  ∀ (s : State) (ra rb rx : Reg) (addr w0 w1 w2 : Word),
    let acc (r : Reg) : Unpacked := unpack40 (s.reg r ++ s.reg (r + 1) ++ s.reg (r + 2) : BitVec (16 + 16 + 16))
    let completes (k : Nat) (f : Unpacked → Unpacked → FloatResult) (i : Instr) (o : Unpacked) (len : Word) : Prop :=
      ((acc ra).normalOrZero 40 → o.normalOrZero 40 →
        (s.cfg.fp = .registerTransfer → exec i s = .next ((s.turns k).afterExtended ra (f (acc ra) o) (s.ic + len))) ∧
          (s.cfg.fp = .implementation → ∃ x, exec i s = .next ((s.turns k).afterExtended ra x (s.ic + len)))) ∧
      (¬((acc ra).normalOrZero 40 ∧ o.normalOrZero 40) →
        ∃ (v : Ext) (m : Word), m &&& ~~~0x1200#16 = 0#16 ∧
          exec i s = .next (((s.turns k).after (setExt s.reg ra v) (signCs false v.toInt) m (s.ic + len)).spend 5))
    let o := unpack40 (w0 ++ w1 ++ w2 : BitVec (16 + 16 + 16))
    completes 0 (fadd 40) (.efar ra rb) (acc rb) 1 ∧ completes 0 (fsub 40) (.efsr ra rb) (acc rb) 1 ∧
      completes 0 (fmul 40) (.efmr ra rb) (acc rb) 1 ∧ completes 0 (fdiv 40) (.efdr ra rb) (acc rb) 1 ∧
      (s.read (s.daLong addr rx) = .ok w0 → (s.turns 1).read (s.daLong addr rx + 1) = .ok w1 →
        (s.turns 2).read (s.daLong addr rx + 2) = .ok w2 →
        completes 3 (fadd 40) (.efa ra rx addr) o 2 ∧ completes 3 (fsub 40) (.efs ra rx addr) o 2 ∧
          completes 3 (fmul 40) (.efm ra rx addr) o 2 ∧ completes 3 (fdiv 40) (.efd ra rx addr) o 2)

/-- FABS and FNEG of a normalized or zero operand, case by case: the mantissa minus one (8000 00) turns into one half with
the exponent one more, and for FNEG one half (4000 00) into minus one with the exponent one less; at the end of the
exponent's range these overflow or underflow; every other mantissa is complemented, by FABS where it is negative. Of
another operand, any number and the interrupts that could arise (U6, entry 12). -/
def Obligations.FloatAbsoluteAndNegative : Prop :=
  ∀ (s : State) (ra rb : Reg),
    let o := unpack24 (s.reg rb ++ s.reg (rb + 1))
    let number (i : Instr) (m e : Int) : Prop :=
      exec i s = .next (s.afterFloat ra ⟨⟨m, e⟩, false, false⟩ (s.ic + 1))
    let overflows (i : Instr) : Prop := exec i s = .next (s.afterFloat ra ⟨⟨8388607, 127⟩, true, false⟩ (s.ic + 1))
    (o.normalOrZero 24 →
      (o.m = -8388608 → o.e = 127 → overflows (.fabs ra rb) ∧ overflows (.fneg ra rb)) ∧
        (o.m = -8388608 → o.e ≠ 127 → number (.fabs ra rb) 4194304 (o.e + 1) ∧ number (.fneg ra rb) 4194304 (o.e + 1)) ∧
        (-8388608 < o.m → number (.fabs ra rb) |o.m| o.e) ∧
        (o.m = 4194304 → o.e = -128 →
          exec (.fneg ra rb) s = .next (s.afterFloat ra ⟨⟨0, 0⟩, false, true⟩ (s.ic + 1))) ∧
        (o.m = 4194304 → o.e ≠ -128 → number (.fneg ra rb) (-8388608) (o.e - 1)) ∧
        (o.m ≠ -8388608 → o.m ≠ 4194304 → number (.fneg ra rb) (-o.m) o.e)) ∧
      (¬o.normalOrZero 24 →
        (∃ (v : Long) (m : Word), m &&& ~~~0x1000#16 = 0#16 ∧
          exec (.fabs ra rb) s = .next ((s.after (setLong s.reg ra v) (signCs false v.toInt) m (s.ic + 1)).spend 4)) ∧
        ∃ (v : Long) (m : Word), m &&& ~~~0x1200#16 = 0#16 ∧
          exec (.fneg ra rb) s = .next ((s.after (setLong s.reg ra v) (signCs false v.toInt) m (s.ic + 1)).spend 4))

/-- FIX and EFIX store the integer portion of the number, truncated toward zero, or request interrupt 4 and leave the
register where the exponent is past 15 or 31; CS from the register; any value for an operand not normalized (U6,
entry 12). FLT and EFLT store the normalized number equal to the integer, one that fits the fields (there is only one), with no
interrupt. -/
def Obligations.Conversions : Prop :=
  ∀ (s : State) (ra rb : Reg),
    let d := unpack24 (s.reg rb ++ s.reg (rb + 1))
    let x := unpack40 (s.reg rb ++ s.reg (rb + 1) ++ s.reg (rb + 2) : BitVec (16 + 16 + 16))
    let short : Word := BitVec.ofInt 16 (integerPortion (d.value 24))
    let long : Long := BitVec.ofInt 32 (integerPortion (x.value 40))
    let pair : Long := s.reg ra ++ s.reg (ra + 1)
    let whole : Long := s.reg rb ++ s.reg (rb + 1)
    (d.normalOrZero 24 →
        (d.e ≤ 15 → exec (.fix ra rb) s =
          .next (s.after (set1 s.reg ra short) (signCs false (integerPortion (d.value 24))) 0 (s.ic + 1))) ∧
        (15 < d.e → exec (.fix ra rb) s = .next (s.after s.reg (signCs false (s.reg ra).toInt) 0x0800#16 (s.ic + 1)))) ∧
      (x.normalOrZero 40 →
        (x.e ≤ 31 → exec (.efix ra rb) s =
          .next (s.after (setLong s.reg ra long) (signCs false (integerPortion (x.value 40))) 0 (s.ic + 1))) ∧
        (31 < x.e → exec (.efix ra rb) s = .next (s.after s.reg (signCs false pair.toInt) 0x0800#16 (s.ic + 1)))) ∧
      (¬d.normalOrZero 24 → ∃ v m : Word, m &&& ~~~0x0800#16 = 0#16 ∧
        exec (.fix ra rb) s = .next ((s.after (set1 s.reg ra v) (signCs false v.toInt) m (s.ic + 1)).spend 2)) ∧
      (¬x.normalOrZero 40 → ∃ (v : Long) (m : Word), m &&& ~~~0x0800#16 = 0#16 ∧
        exec (.efix ra rb) s = .next ((s.after (setLong s.reg ra v) (signCs false v.toInt) m (s.ic + 1)).spend 3)) ∧
      (∃ u : Unpacked, u.value 24 = (s.reg rb).toInt ∧ u.inRange 24 ∧ u.normalOrZero 24 ∧ (u.m = 0 → u.e = 0) ∧
        exec (.flt ra rb) s = .next (s.afterFloat ra ⟨u, false, false⟩ (s.ic + 1))) ∧
      (∃ u : Unpacked, u.value 40 = whole.toInt ∧ u.inRange 40 ∧ u.normalOrZero 40 ∧ (u.m = 0 → u.e = 0) ∧
        exec (.eflt ra rb) s = .next (s.afterExtended ra ⟨u, false, false⟩ (s.ic + 1)))

/-- The floating point compares compare the exact numbers of operands that are normalized or zero; only CS and IC
change. For other operands CS is one of the three codes (U6, entry 12). -/
def Obligations.FloatCompares : Prop :=
  ∀ (s : State) (ra rb br rx : Reg) (addr w0 w1 w2 : Word) (dspl : BitVec 8),
    let short (r : Reg) : Unpacked := unpack24 (s.reg r ++ s.reg (r + 1))
    let long (r : Reg) : Unpacked := unpack40 (s.reg r ++ s.reg (r + 1) ++ s.reg (r + 2) : BitVec (16 + 16 + 16))
    let completes (k w : Nat) (i : Instr) (a o : Unpacked) (len : Word) : Prop :=
      (a.normalOrZero w → o.normalOrZero w →
        exec i s = .next ((s.turns k).after s.reg (compareRat (a.value w) (o.value w)) 0 (s.ic + len))) ∧
      (¬(a.normalOrZero w ∧ o.normalOrZero w) →
        ∃ c : BitVec 4, (c = 0b0010#4 ∨ c = 0b0001#4 ∨ c = 0b0100#4) ∧
          exec i s = .next (((s.turns k).after s.reg c 0 (s.ic + len)).spend 2))
    completes 0 24 (.fcr ra rb) (short ra) (short rb) 1 ∧ completes 0 40 (.efcr ra rb) (long ra) (long rb) 1 ∧
      (s.read (s.daBase br dspl) = .ok w0 → (s.turns 1).read (s.daBase br dspl + 1) = .ok w1 →
        completes 2 24 (.fcb br dspl) (short 0) (unpack24 (w0 ++ w1)) 1) ∧
      (s.read (s.daIndexed br rx) = .ok w0 → (s.turns 1).read (s.daIndexed br rx + 1) = .ok w1 →
        completes 2 24 (.fcbx br rx) (short 0) (unpack24 (w0 ++ w1)) 1) ∧
      (s.read (s.daLong addr rx) = .ok w0 → (s.turns 1).read (s.daLong addr rx + 1) = .ok w1 →
        completes 2 24 (.fc ra rx addr) (short ra) (unpack24 (w0 ++ w1)) 2 ∧
          ((s.turns 2).read (s.daLong addr rx + 2) = .ok w2 →
            completes 3 40 (.efc ra rx addr) (long ra) (unpack40 (w0 ++ w1 ++ w2 : BitVec (16 + 16 + 16))) 2))

/-- Every result of the four algorithms on numbers that are normalized or zero is again one that fits its fields; an
overflow leaves the largest magnitude of a sign, an underflow zero, never both. They are the arithmetic of a machine
whose FP is the spec's algorithms (decision D8, U7, entry 13). -/
def Obligations.FloatResultsAreNumbers : Prop :=
  ∀ (w : Nat) (a o : Unpacked), w = 24 ∨ w = 40 → a.normalOrZero w → o.normalOrZero w → a.inRange w → o.inRange w →
    ∀ f ∈ [fadd w, fsub w, fmul w, fdiv w],
      (f a o).value.normalOrZero w ∧ (f a o).value.inRange w ∧
        ((f a o).overflow = true → (f a o).underflow = false ∧
          ((f a o).value = ⟨2 ^ (w - 1) - 1, 127⟩ ∨ (f a o).value = ⟨-2 ^ (w - 1), 127⟩)) ∧
        ((f a o).underflow = true → (f a o).value = ⟨0, 0⟩)

/-- A sum or difference that neither overflows nor underflows is within two units of the larger exponent's last mantissa
bit of the exact one, and is exact with equal exponents and a sum that fits the mantissa. A product or quotient of
normalized numbers is the exact one with the low mantissa bits dropped: not above it, and less than one last bit
below. This is of the spec's algorithms, the default FP only (decision D8, U7, entry 13); that the quotient is cut
downward is decision D28. -/
def Obligations.FloatRounding : Prop :=
  (∀ (w : Nat) (a o : Unpacked), w = 24 ∨ w = 40 → a.inRange w → o.inRange w →
      let unit : ℚ := (2 : ℚ) ^ max a.e o.e / 2 ^ (w - 1)
      ((fadd w a o).overflow = false → (fadd w a o).underflow = false →
          |(fadd w a o).value.value w - (a.value w + o.value w)| < 2 * unit ∧
            (a.e = o.e → -2 ^ (w - 1) ≤ a.m + o.m → a.m + o.m < 2 ^ (w - 1) →
              (fadd w a o).value.value w = a.value w + o.value w)) ∧
        ((fsub w a o).overflow = false → (fsub w a o).underflow = false →
          |(fsub w a o).value.value w - (a.value w - o.value w)| < 2 * unit ∧
            (a.e = o.e → -2 ^ (w - 1) ≤ a.m - o.m → a.m - o.m < 2 ^ (w - 1) →
              (fsub w a o).value.value w = a.value w - o.value w))) ∧
  ∀ (w : Nat) (a o : Unpacked), w = 24 ∨ w = 40 → a.inRange w → o.inRange w → a.normalOrZero w → o.normalOrZero w →
      let below (r : FloatResult) (x : ℚ) : Prop :=
        r.overflow = false → r.underflow = false →
          r.value.value w ≤ x ∧ x < r.value.value w + (2 : ℚ) ^ r.value.e / 2 ^ (w - 1)
      below (fmul w a o) (a.value w * o.value w) ∧ (o.m ≠ 0 → below (fdiv w a o) (a.value w / o.value w))

/-! ### Logic, exchange, compare -/

/-- OR, AND, XOR and NAND, every form: the result of each bit by itself goes to RA (R2 for the base forms), CS is its
sign. XBR exchanges the bytes of RA, XWR the contents of RA and RB (the same register only gives CS); CS is the sign
of the new RA. -/
def Obligations.LogicInstructions : Prop :=
  ∀ (s : State) (ra rb br rx : Reg) (addr v : Word) (dspl : BitVec 8),
    let writes (m : Nat) (f : Bool → Bool → Bool) (i : Instr) (r : Reg) (x len : Word) : Prop :=
      ∀ y : Word, (∀ k, k < 16 → y.getLsbD k = f ((s.reg r).getLsbD k) (x.getLsbD k)) →
        exec i s = .next ((s.turns m).after (set1 s.reg r y) (signCs false y.toInt) 0 (s.ic + len))
    let nand (a b : Bool) : Bool := !(a && b)
    let b := BitVec.ofNat 16 ((s.reg ra).toNat % 256 * 256 + (s.reg ra).toNat / 256)
    exec (.xbr ra) s = .next (s.after (set1 s.reg ra b) (signCs false b.toInt) 0 (s.ic + 1)) ∧
      exec (.xwr ra rb) s =
        .next (s.after (set1 (set1 s.reg ra (s.reg rb)) rb (s.reg ra)) (signCs false (s.reg rb).toInt) 0 (s.ic + 1)) ∧
      writes 0 or (.orr ra rb) ra (s.reg rb) 1 ∧ writes 0 and (.andr ra rb) ra (s.reg rb) 1 ∧
      writes 0 xor (.xorr ra rb) ra (s.reg rb) 1 ∧ writes 0 nand (.nr ra rb) ra (s.reg rb) 1 ∧
      writes 0 or (.orim ra v) ra v 2 ∧ writes 0 and (.andm ra v) ra v 2 ∧ writes 0 xor (.xorm ra v) ra v 2 ∧
      writes 0 nand (.nim ra v) ra v 2 ∧
      (s.read (s.daBase br dspl) = .ok v → writes 1 or (.orb br dspl) 2 v 1 ∧ writes 1 and (.andb br dspl) 2 v 1) ∧
      (s.read (s.daIndexed br rx) = .ok v → writes 1 or (.orbx br rx) 2 v 1 ∧ writes 1 and (.andx br rx) 2 v 1) ∧
      (s.read (s.daLong addr rx) = .ok v →
        writes 1 or (.or ra rx addr) ra v 2 ∧ writes 1 and (.and ra rx addr) ra v 2 ∧ writes 1 xor (.xor ra rx addr) ra v 2 ∧
          writes 1 nand (.n ra rx addr) ra v 2)

/-- The integer compares: CS by the exact order of the signed numbers, nothing else but IC changes. CBL: the carry alone
where the lower limit is above the upper one, else below, within or above the limits. -/
def Obligations.IntegerCompares : Prop :=
  ∀ (s : State) (ra rb br rx : Reg) (n : Nat) (addr v u : Word) (dspl : BitVec 8),
    let compares (k : Nat) (a b : Int) (len : Word) : Out := .next ((s.turns k).after s.reg (signCs false (a - b)) 0 (s.ic + len))
    let x (r : Reg) : Int := (s.reg r).toInt
    let xx (r : Reg) : Int := (s.reg r ++ s.reg (r + 1) : BitVec (16 + 16)).toInt
    exec (.cr ra rb) s = compares 0 (x ra) (x rb) 1 ∧ exec (.cim ra v) s = compares 0 (x ra) v.toInt 2 ∧
      exec (.dcr ra rb) s = compares 0 (xx ra) (xx rb) 1 ∧
      (1 ≤ n → n ≤ 16 →
        exec (.cisp ra n) s = compares 0 (x ra) n 1 ∧ exec (.cisn ra n) s = compares 0 (x ra) (-n) 1) ∧
      (s.read (s.daBase br dspl) = .ok v → exec (.cb br dspl) s = compares 1 (x 2) v.toInt 1) ∧
      (s.read (s.daIndexed br rx) = .ok v → exec (.cbx br rx) s = compares 1 (x 2) v.toInt 1) ∧
      (s.read (s.daLong addr rx) = .ok v → exec (.c ra rx addr) s = compares 1 (x ra) v.toInt 2) ∧
      (s.read (s.daLong addr rx) = .ok v → (s.turns 1).read (s.daLong addr rx + 1) = .ok u →
        exec (.dc ra rx addr) s = compares 2 (xx ra) (v ++ u : BitVec (16 + 16)).toInt 2 ∧
          exec (.cbl ra rx addr) s =
            .next ((s.turns 2).after s.reg
              (if u.toInt < v.toInt then 0b1000#4 else if x ra < v.toInt then 0b0001#4
                else if u.toInt < x ra then 0b0100#4 else 0b0010#4)
              0 (s.ic + 2)))

/-- NOP changes IC only. BPT halts the processor and its timers with a console connected, and is a NOP without (entry
22). A built-in function the configuration does not define is an illegal instruction: its FT bit (entry 13) and PI
bit 1. One it defines, once its extra words are fetched, always completes: the registers, SW, the special registers,
devices and memory become what its user's function `Config.userState` makes of them, whatever that is, but for the
reserved bits of MFSR and of the page registers, FT bits it cannot set and a PI bit 1 it cannot request; it goes on at
`Config.userTarget` or past its words, or raises the fault of `Config.userFaults`, never the illegal instruction, or
the address state fault where it establishes an AS of no group (R195, R197, R794, D13; the order and these limits are
the model's, entry 25). -/
def Obligations.MiscInstructions : Prop :=
  ∀ (s : State) (opex : BitVec 8),
    exec .nop s = .next (s.after s.reg s.cs 0 (s.ic + 1)) ∧
      (s.cfg.hasConsole = false ∨ s.cfg.consoleConnected = false →
        exec .bpt s = .next (s.after s.reg s.cs 0 (s.ic + 1))) ∧
      (s.cfg.hasConsole = true → s.cfg.consoleConnected = true →
        exec .bpt s =
          .next { s.after s.reg s.cs 0 (s.ic + 1) with
            halted := true, dev := { s.dev with taRun := false, tbRun := false } }) ∧
      (s.cfg.builtins.lookup opex = none →
        ∃ ic : Word, exec (.builtin opex) s =
          .next (s.afterFault (BitVec.twoPow 16 (15 - s.cfg.ftIllegalInstr.toNat)) .illegalInstruction none ic)) ∧
      ∀ (n : Nat) (ws : List Word), s.cfg.builtins.lookup opex = some n → ws.length = n →
        (∀ k (h : k < ws.length), (s.turns k).fetch (s.ic + 1 + BitVec.ofNat 16 k) = .ok ws[k]) →
          let u := s.turns n
          let op := UserOp.builtin opex ws
          let page (w : Word) : Word :=
            match s.cfg.mmu with
            | some m => if m.hasLock then w &&& 0xF8FF#16 else w &&& 0x08FF#16
            | none => w &&& 0xF8FF#16
          ∃ t : State,
            (match Config.userState op u with
              | none => t = u
              | some v =>
                t.regs = v.regs ∧ t.sw = v.sw ∧ t.ft = u.ft &&& v.ft ∧
                  t.mask = v.mask ∧ t.pi = v.pi &&& (u.pi ||| 0xBFFF#16) ∧ t.ien = v.ien ∧
                  t.enblPending = v.enblPending ∧ t.mfsr = v.mfsr &&& 0xF01F#16 ∧
                  t.spiHold = releaseHold (v.pi &&& ~~~u.pi) u.spiHold ∧
                  (memoryOk v.mem → t.mem = v.mem) ∧ (¬memoryOk v.mem → t.mem = u.mem) ∧
                  t.dev = { v.dev with outputs := u.dev.outputs ++ v.dev.outputs } ∧
                  (∀ p : Fin 256, t.ctl.iPage[p] = page v.ctl.iPage[p] ∧ t.ctl.oPage[p] = page v.ctl.oPage[p]) ∧
                  t.ctl.mpr = v.ctl.mpr ∧ t.ctl.mprotEn = v.ctl.mprotEn ∧ t.ctl.suromEn = v.ctl.suromEn ∧
                  t.ctl.badParity = u.ctl.badParity ∧ t.cfg = u.cfg ∧ t.rom = u.rom ∧ t.ic = u.ic ∧
                  t.halted = u.halted ∧ t.schedule = u.schedule ∧ t.dma = u.dma ∧ t.raised = u.raised ∧
                  t.freeCount = u.freeCount ∧ t.resumeIc = u.resumeIc) ∧
              match Config.userFaults op u with
              | none | some (.illegalInstruction, _) =>
                if t.as ≠ s.as ∧ asLegal s.cfg t.as = false then
                  ∃ ic : Word, exec (.builtin opex) s = .next (t.afterFault 0x0010#16 .addressState none ic)
                else
                  exec (.builtin opex) s = .next { t with
                    ic := match Config.userTarget op u with
                      | some a => a
                      | none => s.ic + 1 + BitVec.ofNat 16 n }
              | some (.illegalIo, _) =>
                exec (.builtin opex) s = .next { t with
                  ft := t.ft ||| 0x0400#16, pi := t.pi ||| 0x4000#16, spiHold := releaseHold 0x4000#16 t.spiHold
                  ic := s.ic + 1 + BitVec.ofNat 16 n }
              | some (b, w) =>
                ∃ ic : Word, exec (.builtin opex) s = .next (t.afterFault (bitMask (b.number s.cfg)) b
                  (if b ∈ [FaultBit.cpuProtect, .dmaProtect, .parity, .illegalAddress] then some (w &&& 0xF01F#16)
                    else none) ic)

/-! ### Encoding -/

/-- Decoding what the encoder writes for a well-formed instruction gives the instruction back and leaves what follows. -/
def Obligations.DecodeOfEncode : Prop :=
  ∀ (i : Instr) (rest : List Word), wellFormed i = true →
    decode (bytesOfWords (encode i ++ rest)) = .ok (i, rest) ∧ decodeWords (encode i ++ rest) = .ok (i, rest)

/-- What decodes is well-formed and is exactly what the encoder writes for it: every word has one meaning. A first word
is refused exactly where R195 and R196 list it as undefined (for a field that should be zero, decision D4). -/
def Obligations.EncodeOfDecode : Prop :=
  (∀ (ws rest : List Word) (i : Instr), decodeWords ws = .ok (i, rest) → wellFormed i = true ∧ ws = encode i ++ rest) ∧
    ∀ (w0 : Word),
      let op := w0.toNat / 256
      let f1 := w0.toNat / 16 % 16
      let f2 := w0.toNat % 16
      ((decodeFirst w0).isNone = true ↔
        op ∈ [0x44, 0x45, 0x46, 0x47, 0x4B, 0x4C, 0x4D, 0x4E, 0x5B, 0x5D, 0x5F, 0x64, 0x69, 0x95, 0xAD, 0xAE, 0xAF,
          0xBD,
            0xBE, 0xBF, 0xCC, 0xCD, 0xCE, 0xCF, 0xDC, 0xDD, 0xDE, 0xDF, 0xEE, 0xEF, 0xF5, 0xFC, 0xFD, 0xFE] ∨
          (op = 0x4A ∧ f2 ∈ [0x0, 0xC, 0xD, 0xE, 0xF]) ∨ (op = 0xFF ∧ w0.toNat % 256 ≠ 0 ∧ w0.toNat % 256 ≠ 255) ∨
          (op ∈ [0x77, 0x7C, 0x7D] ∧ f1 ≠ 0) ∨ (op ∈ [0x7F, 0xEC] ∧ f2 ≠ 0))

/-- A word of every column of the opcode matrix (R190) and of its extension groups (40 to 43, 4A, 4F), written out from its
encoding, is the instruction it stands for. -/
def Obligations.SampleWordsDecode : Prop :=
  decodeWords [0x0180, 0x1234] = .ok (.lb 13 0x80, [0x1234]) ∧
    decodeWords [0x16FF] = .ok (.sbb 14 0xFF, []) ∧
    decodeWords [0x2D01] = .ok (.fdb 13 0x01, []) ∧
    decodeWords [0x3F7F] = .ok (.fcb 15 0x7F, []) ∧
    decodeWords [0x4295] = .ok (.fsbx 14 5, []) ∧
    decodeWords [0x4FA5] = .ok (.builtin 0xA5, []) ∧
    decodeWords [0x4A35, 0xFFFE] = .ok (.dim 3 0xFFFE, []) ∧
    decodeWords [0x4810, 0x2002] = .ok (.xio 1 0 0x2002, []) ∧
    decodeWords [0x5142] = .ok (.sbr 4 2, []) ∧
    decodeWords [0x60F3] = .ok (.sll 16 3, []) ∧
    decodeWords [0x74FE] = .ok (.br 0xFE, []) ∧
    decodeWords [0x7D04, 0x0020] = .ok (.lst 4 0x0020, []) ∧
    decodeWords [0x8205] = .ok (.lisp 0 6, []) ∧
    decodeWords [0x9371] = .ok (.mov 7 1, []) ∧
    decodeWords [0xA3F0, 0x8000] = .ok (.incm 16 0 0x8000, []) ∧
    decodeWords [0xB112] = .ok (.sr 1 2, []) ∧
    decodeWords [0xC7A2] = .ok (.dmr 10 2, []) ∧
    decodeWords [0xD401, 0x00FF] = .ok (.d 0 1 0x00FF, []) ∧
    decodeWords [0xEC70] = .ok (.xbr 7, []) ∧
    decodeWords [0xF2B9] = .ok (.cisp 11 10, []) ∧
    decodeWords [0xFF00] = .ok (.nop, [])

/-! ### The step -/

/-- A processor that runs, whose words at IC are fetched one after the other and decode to `i` (not one of the privileged
four in a user mode), runs `i`: the step is the outcome of `i` in the state its fetches leave (as it was but for DMA
before each of them), followed by the boundary. A processor halted at a breakpoint makes no step: the run has ended
(R891; entry 22). -/
def Obligations.StepRunsDecoded : Prop :=
  (∀ (s : State) (w0 w1 : Word) (i : Instr), s.halted = false →
    s.fetch s.ic = .ok w0 → (i.length = 2 → (s.turns 1).fetch (s.ic + 1) = .ok w1) →
    decodeWords [w0, w1] = .ok (i, [w0, w1].drop i.length) → (s.ps = 0#4 ∨ isPrivilegedWord w0 = false) →
      step s = match exec i (s.turns i.length) with
        | .next t => .next (t.boundary s.enblPending)
        | .fault r => .fault r
        | .refused r => .refused r) ∧
    ∀ s : State, s.halted = true → step s = .fault .haltedAtBreakpoint

/-- The order of checks before an instruction runs: a fetch that faults, an undefined first word (the illegal
instruction's FT bit, entry 13), privilege (FT bit 10) decided by the first word alone, for XIO, VIO, LST and LSTI and
no others, then the fetch of the second word of whatever instruction has one (the spec's decision D29; IC any value,
entry 5). A fetch while AS names no group refuses the step (U14). -/
def Obligations.FaultsBeforeExecution : Prop :=
  ∀ (s : State) (w0 : Word) (f : FaultReq) (r : Refusal), s.halted = false →
    let raises (k : Nat) (ft : Word) (b : FaultBit) (d : Option Word) : Prop :=
      ∃ ic : Word, step s = .next (((s.turns k).afterFault ft b d ic).boundary s.enblPending)
    let op := w0.toNat / 256
    let privileged := op = 0x48 ∨ op = 0x49 ∨ ((op = 0x7C ∨ op = 0x7D) ∧ w0.toNat / 16 % 16 = 0)
    (s.fetch s.ic = .error (.fault f) → raises 1 (bitMask (f.bit.number s.cfg)) f.bit f.designators) ∧
      (s.fetch s.ic = .error (.refuse r) → step s = .refused r) ∧
      (s.fetch s.ic = .ok w0 → (∀ w1, decodeWords [w0, w1] = .error (.undefinedWord w0)) →
        raises 1 (BitVec.twoPow 16 (15 - s.cfg.ftIllegalInstr.toNat)) .illegalInstruction none) ∧
      (s.fetch s.ic = .ok w0 → privileged → s.ps ≠ 0#4 → raises 1 0x0020#16 .privileged none) ∧
      (s.fetch s.ic = .ok w0 → (∃ w1 i, decodeWords [w0, w1] = .ok (i, [])) → (s.ps = 0#4 ∨ ¬privileged) →
        (s.turns 1).fetch (s.ic + 1) = .error (.fault f) →
          raises 2 (bitMask (f.bit.number s.cfg)) f.bit f.designators)

/-- What the reset leaves, of the values the standard gives: IC, SW, FT, MK, PI and the two interrupt latches zero, the
timers at zero and running, DMA disabled, the discrete outputs zero, normal power up set, the Go indicator high,
memory protection off, the start up ROM enabled, and the page registers of group 0 mapping every page to itself. (Go
output high: entry 28.) -/
def Obligations.ResetState : Prop :=
  let s := State.reset
  s.ic = 0 ∧ s.sw = 0 ∧ s.ft = 0 ∧ s.mask = 0 ∧ s.pi = 0 ∧ s.ien = false ∧ s.enblPending = false ∧ s.halted = false ∧
    s.dev.ta = 0 ∧ s.dev.tb = 0 ∧ s.dev.taRun = true ∧ s.dev.tbRun = true ∧ s.dev.dmaEn = false ∧ s.dev.dout = 0 ∧
    s.dev.npu = true ∧ s.dev.goHigh = true ∧ s.ctl.mprotEn = false ∧ s.ctl.suromEn = true ∧
    (∀ n : Fin 128, s.ctl.mpr[n] = 0) ∧
    ∀ p : Fin 16, s.ctl.iPage[p.val] = BitVec.ofNat 16 p.val ∧ s.ctl.oPage[p.val] = BitVec.ofNat 16 p.val

/-- The reset state is sound. -/
def Obligations.ResetIsSound : Prop := State.reset.Inv

/-- Every step from a sound state leaves a sound state: both memories canonical and inside the physical space, FT bit
12, the reserved bits of MFSR and of every page register zero (U10, D24), whatever DMA comes in between and whatever a
built-in function or a spare command does (entry 25). The configuration and the ROM never change, and between two steps
nothing is left of a MOV's interrupt point. -/
def Obligations.StepKeepsInv : Prop :=
  ∀ s t : State, s.Inv → step s = .next t → t.Inv ∧ t.cfg = s.cfg ∧ t.rom = s.rom ∧ t.resumeIc = none

/-- No instruction but XIO, VIO, LST, LSTI, BEX and the built-in functions the configuration defines changes PS, AS or the
reserved bits of SW, in any mode and through any fault, MK, the enable latches, the page registers, the protection RAM
or the devices (BPT the two timers' running only). What such an instruction leaves differs in general registers, IC,
CS, FT, PI, MFSR, memory and what DMA does. What a defined built-in function may change is its user's (R794, entry
25); one whose user's function leaves PS, AS and the reserved bits alone, as R831 has it, does so too. -/
def Obligations.ControlStateFrame : Prop :=
  ∀ (i : Instr) (s t : State), exec i s = .next t →
    (∀ ra rx addr, i ≠ .xio ra rx addr ∧ i ≠ .vio ra rx addr) → (∀ rx addr, i ≠ .lst rx addr ∧ i ≠ .lsti rx addr) →
    (∀ n, i ≠ .bex n) →
      ((∀ opex ws u v, i = .builtin opex → s.cfg.builtins.lookup opex ≠ none →
          Config.userState (.builtin opex ws) u = some v → v.sw.extractLsb' 0 12 = u.sw.extractLsb' 0 12) →
        t.sw.extractLsb' 0 12 = s.sw.extractLsb' 0 12) ∧ t.cfg = s.cfg ∧ t.rom = s.rom ∧ t.schedule = s.schedule ∧
        t.ctl.badParity = s.ctl.badParity ∧ (i ≠ .bpt → t.halted = s.halted) ∧
        ((∀ opex, i = .builtin opex → s.cfg.builtins.lookup opex = none) →
          t.mask = s.mask ∧ t.ien = s.ien ∧ t.enblPending = s.enblPending ∧ t.ctl = s.ctl ∧
            (i ≠ .bpt → t.dev = s.dev) ∧
            (i = .bpt → t.dev = s.dev ∨ t.dev = { s.dev with taRun := false, tbRun := false }))

/-- A program in a user mode (PS not zero) that runs one instruction other than BEX and the built-in functions the
configuration defines leaves PS, AS and the reserved bits of SW as they are, MK, the enable latches, the page
registers, the protection RAM and every device too, but for the timers, which a BPT stops, and its halt. Whether a
built-in function is privileged and what it changes is for its user (R794, entry 25): PS, AS and the reserved bits
stay where its function leaves them alone, as R831 has it. -/
def Obligations.UserModeIsConfined : Prop :=
  ∀ (i : Instr) (s t : State), s.ps ≠ 0#4 → exec i s = .next t → (∀ n, i ≠ .bex n) →
    ((∀ opex ws u v, i = .builtin opex → s.cfg.builtins.lookup opex ≠ none →
        Config.userState (.builtin opex ws) u = some v → v.sw.extractLsb' 0 12 = u.sw.extractLsb' 0 12) →
      t.sw.extractLsb' 0 12 = s.sw.extractLsb' 0 12) ∧ (i ≠ .bpt → t.halted = s.halted) ∧
      ((∀ opex, i = .builtin opex → s.cfg.builtins.lookup opex = none) →
        t.mask = s.mask ∧ t.ien = s.ien ∧ t.enblPending = s.enblPending ∧ t.ctl = s.ctl ∧
          (i ≠ .bpt → t.dev = s.dev) ∧
          (i = .bpt → t.dev = s.dev ∨ t.dev = { s.dev with taRun := false, tbRun := false }))

/-- XIO, VIO, LST and LSTI with PS not zero do nothing but raise the privileged instruction fault, FT bit 10, before any
of their operands is read (IC any value, entry 5). -/
def Obligations.PrivilegedInstructionsTrap : Prop :=
  ∀ (s : State) (ra rx : Reg) (addr : Word), s.ps ≠ 0#4 →
    ∀ i ∈ [Instr.xio ra rx addr, .vio ra rx addr, .lst rx addr, .lsti rx addr],
      ∃ ic : Word, exec i s = .next (s.afterFault 0x0020#16 .privileged none ic)

/-- An operand word that faults ends the instruction at the fault: FT, PI bit 1 and MFSR written, IC any value, and no
general register, no CS and no byte of memory (entry 5). Shown for every instruction that reads operands from memory, long,
base relative, indexed, indirect and through a register, at its first word, at the second and third of two and three
word operands, and at the words a pointer addresses; and for every store of one word that is refused. Not among them:
LM and POPM (O10), VIO (O59), SJS, and the stores of several words. TSB whose write a protection check refuses may also
set CS by the bit tested, at any other fault of the write it does not (R335, entry 17). -/
def Obligations.OperandFaultsStop : Prop :=
  ∀ (s : State) (ra br rx : Reg) (n : BitVec 4) (k : Nat) (dspl : BitVec 8) (addr p w w' : Word) (f : FaultReq),
    let long := s.daLong addr rx
    let ends (refs : Nat) (i : Instr) : Prop :=
      ∃ ic : Word, exec i s = .next ((s.turns refs).afterFault (bitMask (f.bit.number s.cfg)) f.bit f.designators ic)
    let faults (refs : Nat) (a : Word) : Prop := (s.turns refs).read a = .error (.fault f)
    let refuses (a : Word) : Prop :=
      groupImplemented s.cfg s.as = true ∧ s.translate .cpu .write s.as (some s.ps) a = .error f
    let refused (refs : Nat) (i : Instr) : Prop :=
      ∃ ic : Word, exec i s =
        .next { (s.turns refs).afterFault (bitMask (f.bit.number s.cfg)) f.bit f.designators ic with
          freeCount := (s.turns refs).freeCount + 2 }
    let doubles : List Instr :=
      [.dl ra rx addr, .da ra rx addr, .ds ra rx addr, .dm ra rx addr, .dd ra rx addr, .fa ra rx addr, .fs ra rx addr,
        .fm ra rx addr, .fd ra rx addr, .fc ra rx addr, .cbl ra rx addr, .dc ra rx addr]
    let triples : List Instr :=
      [.efl ra rx addr, .efa ra rx addr, .efs ra rx addr, .efm ra rx addr, .efd ra rx addr, .efc ra rx addr]
    let baseDoubles : List Instr := [.dlb br dspl, .fab br dspl, .fsb br dspl, .fmb br dspl, .fdb br dspl, .fcb br dspl]
    let indexedDoubles : List Instr := [.dlbx br rx, .fabx br rx, .fsbx br rx, .fmbx br rx, .fdbx br rx, .fcbx br rx]
    (faults 0 long →
      (∀ i ∈ [Instr.l ra rx addr, .li ra rx addr, .dli ra rx addr, .lub ra rx addr, .llb ra rx addr, .lubi ra rx addr,
          .llbi ra rx addr, .sb n rx addr, .rb n rx addr, .sbi n rx addr, .rbi n rx addr, .tb n rx addr, .tbi n rx addr,
          .tsb n rx addr, .sti ra rx addr, .stci n rx addr, .dsti ra rx addr, .srm ra rx addr, .stub ra rx addr,
          .stlb ra rx addr, .subi ra rx addr, .slbi ra rx addr, .a ra rx addr, .s ra rx addr, .incm k rx addr,
          .decm k rx addr, .ms ra rx addr, .m ra rx addr, .dv ra rx addr, .d ra rx addr, .or ra rx addr, .and ra rx addr,
          .xor ra rx addr, .n ra rx addr, .c ra rx addr] ++ doubles ++ triples, ends 1 i) ∧
        (s.ps = 0#4 → ∀ i ∈ [Instr.lst rx addr, .lsti rx addr], ends 1 i) ∧
          (n = 0x7#4 ∨ n = 0xF#4 ∨ (∃ j, j < 4 ∧ n.getLsbD j = true ∧ s.sw.getLsbD (12 + j) = true) →
            ends 1 (.jci n rx addr))) ∧
    (faults 0 (s.reg ra) → ends 1 (.urs ra)) ∧
    (s.reg (ra + 1) ≠ 0#16 → faults 0 (s.reg br) → ends 1 (.mov ra br)) ∧
    (faults 0 (s.daBase br dspl) →
      ∀ i ∈ [Instr.lb br dspl, .ab br dspl, .sbb br dspl, .mb br dspl, .db br dspl, .orb br dspl, .andb br dspl,
          .cb br dspl] ++ baseDoubles, ends 1 i) ∧
    (faults 0 (s.daIndexed br rx) →
      ∀ i ∈ [Instr.lbx br rx, .abx br rx, .sbbx br rx, .mbx br rx, .dbx br rx, .orbx br rx, .andx br rx, .cbx br rx] ++
          indexedDoubles, ends 1 i) ∧
    (s.read long = .ok w → faults 1 (long + 1) →
      (∀ i ∈ doubles ++ triples, ends 2 i) ∧ (s.ps = 0#4 → ends 2 (.lst rx addr))) ∧
    (s.read (s.daBase br dspl) = .ok w → faults 1 (s.daBase br dspl + 1) → ∀ i ∈ baseDoubles, ends 2 i) ∧
    (s.read (s.daIndexed br rx) = .ok w → faults 1 (s.daIndexed br rx + 1) → ∀ i ∈ indexedDoubles, ends 2 i) ∧
    (s.read long = .ok w → (s.turns 1).read (long + 1) = .ok w' → faults 2 (long + 2) →
      (∀ i ∈ triples, ends 3 i) ∧ (s.ps = 0#4 → ends 3 (.lst rx addr))) ∧
    (s.read long = .ok p → faults 1 p →
      (∀ i ∈ [Instr.li ra rx addr, .dli ra rx addr, .lubi ra rx addr, .llbi ra rx addr, .sbi n rx addr, .rbi n rx addr,
          .tbi n rx addr, .subi ra rx addr, .slbi ra rx addr], ends 2 i) ∧ (s.ps = 0#4 → ends 2 (.lsti rx addr))) ∧
    (s.read long = .ok p → (s.turns 1).read p = .ok w → faults 2 (p + 1) →
      ends 3 (.dli ra rx addr) ∧ (s.ps = 0#4 → ends 3 (.lsti rx addr))) ∧
    (s.read long = .ok p → (s.turns 1).read p = .ok w → (s.turns 2).read (p + 1) = .ok w' → faults 3 (p + 2) →
      s.ps = 0#4 → ends 4 (.lsti rx addr)) ∧
    (refuses long →
      refused 1 (.st ra rx addr) ∧ refused 1 (.stc n rx addr) ∧
        (s.read long = .ok w →
          (∀ i ∈ [Instr.sb n rx addr, .rb n rx addr, .srm ra rx addr, .stub ra rx addr, .stlb ra rx addr, .incm k rx addr,
              .decm k rx addr], refused 2 i) ∧
            let fails (t : State) : Prop :=
              ∃ ic : Word, exec (.tsb n rx addr) s =
                .next (t.afterFault (bitMask (f.bit.number s.cfg)) f.bit f.designators ic)
            (f.bit = .cpuProtect →
              ∃ c, (c = s.cs ∨ c = bitCs n.toNat w) ∧ fails (((s.turns 1).after s.reg c 0 s.ic).spend 1)) ∧
              (f.bit ≠ .cpuProtect → fails (s.turns 1)))) ∧
    (s.reg (ra + 1) ≠ 0#16 → s.read (s.reg br) = .ok w → refuses (s.reg ra) → refused 2 (.mov ra br)) ∧
    (refuses (s.daBase br dspl) → refused 1 (.stb br dspl)) ∧
    (refuses (s.daIndexed br rx) → refused 1 (.stbx br rx)) ∧
    (s.read long = .ok p → refuses p →
      refused 2 (.sti ra rx addr) ∧ refused 2 (.stci n rx addr) ∧
        ((s.turns 1).read p = .ok w →
          ∀ i ∈ [Instr.sbi n rx addr, .rbi n rx addr, .subi ra rx addr, .slbi ra rx addr], refused 3 i))

/-! ### Memory -/

/-- A memory in canonical form is determined by what its cells read as. Writing a word keeps the form, the word reads
back, its bytes are the upper one at the even cell and the lower one at the odd cell (the model's numbering, entry
4), and every other cell reads as before. -/
def Obligations.MemoryLaws : Prop :=
  (∀ m m' : Memory, m.wf = true → m'.wf = true → (∀ a, m.get a = m'.get a) → m = m') ∧
    ∀ (m : Memory) (pa : Nat) (w : Word), m.wf = true →
      (m.writeWord pa w).wf = true ∧ (m.writeWord pa w).readWord pa = w ∧
        (m.writeWord pa w).get (2 * pa) = BitVec.ofNat 8 (w.toNat / 256) ∧
        (m.writeWord pa w).get (2 * pa + 1) = BitVec.ofNat 8 w.toNat ∧
        (∀ a, a ≠ 2 * pa → a ≠ 2 * pa + 1 → (m.writeWord pa w).get a = m.get a)

/-- Translation of a reference with a page group `g` and a key: without expanded memory the logical address; with it,
the page address of the group's register times 4096 plus the low 12 bits. The lock must admit the key (0, or the lock
F, or equal), a fetch needs E = 0 and a store W = 0; else FT bit 0 (1 for a DMA device) with the designators of the
reference. A physical address past the implemented ones is FT bit 8. A sound physical word is reached where nothing
protects it. What a CPU read or fetch finds is the word there in the state of its turn, or the fault. A reference
while AS names no group is refused by name (U14). -/
def Obligations.AddressTranslation : Prop :=
  ∀ (s : State) (a : Agent) (k : RefKind) (g key : BitVec 4) (la : Word),
    let b : FaultBit := if a = .cpu then .cpuProtect else .dmaProtect
    let half : Nat := if a = .cpu then 0 else 64
    let maps (m : MmuConfig) (r : Word) : Prop :=
      let locked := m.hasLock = true ∧ ¬(key = 0#4 ∨ r.toNat / 4096 = 15 ∨ r.toNat / 4096 = key.toNat)
      let barred := k ≠ .read ∧ r.getLsbD 11 = true
      s.mapPage a k g (some key) la =
        if locked ∨ barred then .error ⟨b, some (designatorsOf la (k == .fetch) g)⟩
        else .ok (r.toNat % 256 * 4096 + la.toNat % 4096)
    let finds (x : Except Stop Word) (t : Except FaultReq Nat) : Prop :=
      (∀ pa, t = .ok pa → x = .ok (s.turn.physRead pa)) ∧ ∀ f, t = .error f → x = .error (.fault f)
    (s.cfg.mmu = none → s.mapPage a k g (some key) la = .ok la.toNat) ∧
      (∀ m, s.cfg.mmu = some m →
        maps m (if k = .fetch then s.ctl.iPage[(g ++ la.extractLsb' 12 4 : BitVec (4 + 4)).toNat]'(BitVec.isLt _)
          else s.ctl.oPage[(g ++ la.extractLsb' 12 4 : BitVec (4 + 4)).toNat]'(BitVec.isLt _))) ∧
      (∀ pa, s.mapPage a k g (some key) la = .ok pa →
        ((k = .write → s.cfg.hasMprot = true → s.ctl.mprotEn = true →
            ∀ h : half + pa / 16384 < 128, (s.ctl.mpr[half + pa / 16384]'h).getLsbD (15 - pa / 1024 % 16) = false) →
          (k ≠ .write → s.romOverlay pa = false) → (s.cfg.hasParity = true → pa ∉ s.ctl.badParity) →
          s.translate a k g (some key) la =
            if physImplemented s.cfg pa = true then .ok pa
            else .error ⟨.illegalAddress, some (designatorsOf la (k == .fetch) g)⟩)) ∧
      (groupImplemented s.cfg s.as = true →
        finds (s.read la) (s.translate .cpu .read s.as (some s.ps) la) ∧
          finds (s.fetch la) (s.translate .cpu .fetch s.as (some s.ps) la)) ∧
      (∀ m, s.cfg.mmu = some m → m.groups.toNat ≤ s.as.toNat →
        s.read la = .error (.refuse .unimplementedGroup) ∧ s.fetch la = .error (.refuse .unimplementedGroup) ∧
          ∀ ws next, s.store ws next = .refused .unimplementedGroup)

/-- The protections of a physical word, in their order: a store into a 1024-word block whose bit in the protect RAM is 1
is FT bit 0 (bit 1 for a DMA device, which has its own half of the RAM) while protection is on; a read of an address
the start up ROM overlays takes the ROM's word, before memory is asked (entry 32), and a store there still goes to
memory; an address past the 65,536 words of a machine without expanded memory is FT bit 8, for a DMA device too,
whatever the protect RAM holds (R130, entry 31); a word with bad parity, of the list the model keeps (entry 29), is FT
bit 2. -/
def Obligations.PhysicalProtection : Prop :=
  ∀ (s : State) (k : RefKind) (a : Agent) (d : Word) (pa : Nat), pa < 1048576 →
    (s.cfg.hasMprot = true → s.ctl.mprotEn = true → (s.cfg.mmu = none → pa < 65536) →
      (∀ h : pa / 16384 < 128, (s.ctl.mpr[pa / 16384]'h).getLsbD (15 - pa / 1024 % 16) = true →
        s.checkPhysical .cpu .write d pa = .error ⟨.cpuProtect, some d⟩) ∧
      (∀ h : 64 + pa / 16384 < 128, (s.ctl.mpr[64 + pa / 16384]'h).getLsbD (15 - pa / 1024 % 16) = true →
        s.checkPhysical .dma .write d pa = .error ⟨.dmaProtect, some d⟩)) ∧
      (∀ size, s.cfg.surom = some size → s.ctl.suromEn = true → pa ≤ size.val →
        (k ≠ .write → s.checkPhysical a k d pa = .ok pa) ∧ s.physRead pa = Memory.readWord s.rom pa ∧
          ∀ w, (s.physWrite pa w).rom = s.rom ∧ (s.physWrite pa w).mem = Memory.writeWord s.mem pa w) ∧
      (s.cfg.mmu = none → 65536 ≤ pa → s.checkPhysical a k d pa = .error ⟨.illegalAddress, some d⟩) ∧
      (s.cfg.hasParity = true → pa ∈ s.ctl.badParity → physImplemented s.cfg pa = true → s.romOverlay pa = false →
        k ≠ .write → s.checkPhysical a k d pa = .error ⟨.parity, some d⟩)

/-! ### Interrupts -/

/-- LST and LSTI with PS zero load MK, SW and IC from three words, any values in the reserved bits of SW where those are
not zero (decision D15, entry 10); an AS that names no group is the address state fault, FT bit 11, once MK and SW
are written (decision D13, entry 24). -/
def Obligations.StatusLoads : Prop :=
  ∀ (s : State) (rx : Reg) (addr p w0 w1 w2 : Word), s.ps = 0#4 →
    let loads (s : State) (o : Out) : Prop :=
      ∃ (x : Word) (n : Nat), loadedSw w1 x ∧
        (asLegal s.cfg (asOf w1) = true →
          o = .next { s with mask := w0, sw := x, ic := w2, freeCount := n }) ∧
        (asLegal s.cfg (asOf w1) = false →
          ∃ ic : Word, o = .next
            { ({ s with mask := w0, sw := x }).afterFault 0x0010#16 .addressState none ic with freeCount := n + 1 })
    (s.read (s.daLong addr rx) = .ok w0 → (s.turns 1).read (s.daLong addr rx + 1) = .ok w1 →
      (s.turns 2).read (s.daLong addr rx + 2) = .ok w2 → loads (s.turns 3) (exec (.lst rx addr) s)) ∧
    (s.read (s.daLong addr rx) = .ok p → (s.turns 1).read p = .ok w0 → (s.turns 2).read (p + 1) = .ok w1 →
      (s.turns 3).read (p + 2) = .ok w2 → loads (s.turns 4) (exec (.lsti rx addr) s))

/-- The sequence of interrupt `n` with entry `e` and old instruction counter `old`: the service pointer at 21 + 2n, then
new MK, new SW and new IC, then the linkage pointer at 20 + 2n, all read in group 0 with the lock ignored; old MK,
SW and IC stored at the linkage pointer in the group of the new SW; MK, SW, IC loaded, the interrupt's own PI bit
and the enable latches cleared, IOIC held and the channel it shows no longer requesting for an input/output interrupt
(decisions D11, D30; entries 10, 38, 42). An AS
of the new SW that names no group is the address state fault, with nothing stored. -/
def Obligations.InterruptSequence : Prop :=
  ∀ (s : State) (n e : BitVec 4) (old svp mk sw ic lp : Word) (q0 q1 q2 : Nat), s.mem.wf = true →
    let h : State := { s with dev := { s.dev with
      ioicHold1 := s.dev.ioicHold1 || (s.cfg.hasIoic && n == s.cfg.intIo1)
      ioicHold2 := s.dev.ioicHold2 || (s.cfg.hasIoic && n == s.cfg.intIo2)
      ioicRequests1 := if s.cfg.hasIoic ∧ n = s.cfg.intIo1 ∧ s.dev.ioicHold1 = false
        then s.dev.ioicRequests1.erase s.dev.ioic1 else s.dev.ioicRequests1
      ioicRequests2 := if s.cfg.hasIoic ∧ n = s.cfg.intIo2 ∧ s.dev.ioicHold2 = false
        then s.dev.ioicRequests2.erase s.dev.ioic2 else s.dev.ioicRequests2 } }
    h.vectorRead (BitVec.ofNat 16 (0x21 + 2 * n.toNat)) = .ok svp → (h.turns 1).vectorRead svp = .ok mk →
    (h.turns 2).vectorRead (svp + 1) = .ok sw → (h.turns 3).vectorRead (svp + 2 + BitVec.ofNat 16 e.toNat) = .ok ic →
    (h.turns 4).vectorRead (BitVec.ofNat 16 (0x20 + 2 * n.toNat)) = .ok lp →
    (asLegal s.cfg (asOf sw) = true →
      s.translate .cpu .write (asOf sw) none lp = .ok q0 → s.translate .cpu .write (asOf sw) none (lp + 1) = .ok q1 →
      s.translate .cpu .write (asOf sw) none (lp + 2) = .ok q2 →
        ∃ (t : State) (x : Word) (c : Nat), loadedSw sw x ∧
          StoredInTurn (h.turns 5) [(q0, s.mask), (q1, s.sw), (q2, old)] t ∧
          s.enterInterrupt n e old = .done { t with
            mask := mk, sw := x, ic := ic, ien := false, enblPending := false
            pi := t.pi &&& ~~~BitVec.twoPow 16 (15 - n.toNat), freeCount := c }) ∧
      (asLegal s.cfg (asOf sw) = false → s.enterInterrupt n e old = .faulted addressStateFault (h.turns 5))

/-- BEX is the sequence of interrupt 5 with its entry number, in every mode and whatever MK and the enable latch are;
the saved IC is the next instruction (decision D2). The reserved bits of the new SW are as entry 10 says (decision
D15), and IOIC is held where 5 is the number of an input/output level (entries 38, 42). -/
def Obligations.BranchToExecutive : Prop :=
  ∀ (s : State) (e : BitVec 4) (svp mk sw ic lp : Word) (q0 q1 q2 : Nat), s.mem.wf = true →
    let h : State := { s with dev := { s.dev with
      ioicHold1 := s.dev.ioicHold1 || (s.cfg.hasIoic && 5#4 == s.cfg.intIo1)
      ioicHold2 := s.dev.ioicHold2 || (s.cfg.hasIoic && 5#4 == s.cfg.intIo2)
      ioicRequests1 := if s.cfg.hasIoic ∧ 5#4 = s.cfg.intIo1 ∧ s.dev.ioicHold1 = false
        then s.dev.ioicRequests1.erase s.dev.ioic1 else s.dev.ioicRequests1
      ioicRequests2 := if s.cfg.hasIoic ∧ 5#4 = s.cfg.intIo2 ∧ s.dev.ioicHold2 = false
        then s.dev.ioicRequests2.erase s.dev.ioic2 else s.dev.ioicRequests2 } }
    h.vectorRead 0x002B = .ok svp → (h.turns 1).vectorRead svp = .ok mk → (h.turns 2).vectorRead (svp + 1) = .ok sw →
    (h.turns 3).vectorRead (svp + 2 + BitVec.ofNat 16 e.toNat) = .ok ic → (h.turns 4).vectorRead 0x002A = .ok lp →
    asLegal s.cfg (asOf sw) = true →
    s.translate .cpu .write (asOf sw) none lp = .ok q0 → s.translate .cpu .write (asOf sw) none (lp + 1) = .ok q1 →
    s.translate .cpu .write (asOf sw) none (lp + 2) = .ok q2 →
      ∃ (x : Word) (c : Nat), loadedSw sw x ∧
        Stores (exec (.bex e) s) (h.turns 5) [(q0, s.mask), (q1, s.sw), (q2, s.ic + 1)] fun t =>
          { t with
            mask := mk, sw := x, ic := ic, ien := false, enblPending := false, pi := t.pi &&& 0xFBFF#16
            freeCount := c }

/-- LST through the linkage pointer undoes a BEX: on a machine without expanded memory, protection, ROM or parity, a BEX
followed by LST of the linkage pointer leaves MK and SW as they were, IC at the instruction after the BEX and the
general registers untouched; the enable latches stay off and PI bit 5 clear. No DMA comes in between. That SW comes
back exactly rests on its reserved bits being zero and then kept (decision D15, entry 10). -/
def Obligations.ExecutiveCallReturns : Prop :=
  ∀ (s t : State) (e : BitVec 4) (lp sw : Word), s.mem.wf = true → s.cfg.mmu = none → s.cfg.hasMprot = false →
    s.cfg.surom = none → s.cfg.hasParity = false → s.cfg.hasIoic = false → (∀ a, a < 65536 → physImplemented s.cfg a = true) →
    (s.cfg.hasDma = false ∨ s.dev.dmaEn = false ∨ s.dma.slots = []) →
    s.vectorRead 0x002A = .ok lp → (∀ svp, s.vectorRead 0x002B = .ok svp → s.vectorRead (svp + 1) = .ok sw) →
    sw &&& 0x0FFF#16 = 0#16 → s.sw &&& 0x0F0F#16 = 0#16 → exec (.bex e) s = .next t →
      ∃ u, exec (.lst 0 lp) t = .next u ∧ u.mask = s.mask ∧ u.sw = s.sw ∧ u.ic = s.ic + 1 ∧ u.regs = s.regs ∧
        u.ien = false ∧ u.enblPending = false ∧ u.pi = s.pi &&& 0xFBFF#16

/-- The interrupt taken is the lowest numbered one whose PI bit is set, not held back by an SPI, and allowed: 0 and 5
always, 1 by its mask bit, the others by mask bit and enable latch (decisions D12, D25). -/
def Obligations.InterruptPriority : Prop :=
  ∀ (s : State) (n : BitVec 4),
    let takes (k : Nat) : Prop :=
      s.pi.getLsbD (15 - k) = true ∧ (∀ h ∈ s.spiHold, h.getLsbD (15 - k) = false) ∧
        (k = 0 ∨ k = 5 ∨ (s.mask.getLsbD (15 - k) = true ∧ (k = 1 ∨ s.ien = true)))
    (s.nextInterrupt = some n ↔ takes n.toNat ∧ ∀ k, k < n.toNat → ¬takes k) ∧
      (s.nextInterrupt = none ↔ ∀ k, k < 16 → ¬takes k)

/-- At the end of a step whose instruction left `u`, with nothing from outside: if an interrupt is due it is taken
there, with the IC the instruction left as the old one, or after the last word of a MOV the address of the MOV (R496);
if none is due the state is `u`. What an SPI holds back is then held back for one boundary less (decision D25, entry
18). -/
def Obligations.StepTakesInterrupt : Prop :=
  ∀ (s f u t : State) (i : Instr) (n : BitVec 4), s.halted = false → s.enblPending = false → s.fetchInstr = (.ok i, f) →
    exec i f = .next u → u.schedule = [] → u.halted = false →
      let v : State := { u with ic := u.resumeIc.getD u.ic }
      (u.nextInterrupt = none → step s = .next { u with spiHold := u.spiHold.tail, resumeIc := none }) ∧
        (u.nextInterrupt = some n → v.enterInterrupt n 0 v.ic = .done t → t.nextInterrupt = none →
          step s = .next { t with spiHold := t.spiHold.tail, resumeIc := none })

/-- XIO ENBL takes effect after the instruction that follows it, whatever that is: the step of the ENBL leaves the enable
latch as it was, and the step of the next instruction turns it on, unless that instruction cancels the enabling, and
then recognizes the interrupt that is due (R815, R822); an interrupt taken between the two cancels it (D11). Nothing
from outside arrives meanwhile. -/
def Obligations.EnableDelay : Prop :=
  ∀ (s f : State) (ra rx : Reg) (addr : Word), s.halted = false → s.enblPending = false → s.schedule = [] → s.ps = 0#4 →
    s.fetchInstr = (.ok (.xio ra rx addr), f) → s.daLong addr rx = 0x2002#16 →
      let ends (v : State) : State := { v with spiHold := v.spiHold.tail, resumeIc := none }
      let takes (v : State) (n : BitVec 4) (w : State) : Prop :=
        v.nextInterrupt = some n ∧ w.nextInterrupt = none ∧
          State.enterInterrupt { v with ic := v.resumeIc.getD v.ic } n 0 (v.resumeIc.getD v.ic) = .done w
      let enbl : State := { f with ic := s.ic + 2, enblPending := true }
      (enbl.nextInterrupt = none → step s = .next (ends enbl)) ∧
        (∀ n w, takes enbl n w → step s = .next (ends w) ∧ w.ien = false ∧ w.enblPending = false) ∧
        ∀ (g u : State) (i : Instr), (ends enbl).fetchInstr = (.ok i, g) → exec i g = .next u → u.schedule = [] →
          let v : State := if u.enblPending then { u with ien := true, enblPending := false } else u
          (u.halted = true ∨ v.nextInterrupt = none → step (ends enbl) = .next (ends v)) ∧
            ∀ n w, u.halted = false → takes v n w → step (ends enbl) = .next (ends w)

/-! ### Input and output -/

/-- The output commands every machine has: SMK, CLIR, ENBL, DSBL, RPI, SPI, WSW. RPI uses the low four bits of RA
(decision D24). SPI holds the bits it sets newly back at as many boundaries as SPI_LATENCY says (D25, entry 18); WSW
with reserved bits or an AS of no group does as LST does (D13, D15, entries 10, 24). -/
def Obligations.InterruptCommands : Prop :=
  ∀ (s : State) (ra rx : Reg) (addr : Word), s.ps = 0#4 →
    let r := s.reg ra
    let b := BitVec.twoPow 16 (15 - r.toNat % 16)
    let cmd := s.daLong addr rx
    let o := exec (.xio ra rx addr) s
    (cmd = 0x2000#16 → o = .next { s with mask := r, ic := s.ic + 2 }) ∧
      (cmd = 0x2001#16 → o = .next { s with pi := 0, ft := 0, spiHold := [], ic := s.ic + 2 }) ∧
      (cmd = 0x2002#16 → o = .next { s with enblPending := true, ic := s.ic + 2 }) ∧
      (cmd = 0x2003#16 → o = .next { s with ien := false, enblPending := false, ic := s.ic + 2 }) ∧
      (cmd = 0x2004#16 →
        o = .next { s with
          pi := s.pi &&& ~~~b, spiHold := releaseHold b s.spiHold, ft := if r.toNat % 16 = 1 then 0 else s.ft,
            ic := s.ic + 2 }) ∧
      (cmd = 0x2005#16 →
        ∃ held : List Word,
          (∀ j, heldBits (held.drop j) =
            heldBits (s.spiHold.drop j) ||| (if j < s.cfg.spiLatency then r &&& ~~~s.pi else 0#16)) ∧
            o = .next { s with pi := s.pi ||| r, spiHold := held, ic := s.ic + 2 }) ∧
      (cmd = 0x200E#16 → asLegal s.cfg (asOf r) = true →
        ∃ (x : Word) (n : Nat), loadedSw r x ∧ o = .next { s with sw := x, freeCount := n, ic := s.ic + 2 }) ∧
      (cmd = 0x200E#16 → asLegal s.cfg (asOf r) = false →
        ∃ (x ic : Word) (n : Nat), loadedSw r x ∧
          o = .next { ({ s with sw := x }).afterFault 0x0010#16 .addressState none ic with freeCount := n })

/-- The output commands of the optional devices, each where its option is implemented. What is sent out is listed in the
model's log of outputs, the console's buffers and the Go counter are the model's (entries 20, 27, 28). -/
def Obligations.DeviceCommands : Prop :=
  ∀ (s : State) (ra rx : Reg) (addr : Word), s.ps = 0#4 →
    let r := s.reg ra
    let cmd := s.daLong addr rx
    let o := exec (.xio ra rx addr) s
    let dev (d : Devices) : Prop := o = .next { s with dev := d, ic := s.ic + 2 }
    let ctl (c : MemControl) : Prop := o = .next { s with ctl := c, ic := s.ic + 2 }
    (s.cfg.hasPio = true → cmd.toNat < 0x400 →
        dev { s.dev with pobuf := r, outputs := s.dev.outputs ++ [.pio (BitVec.ofNat 10 cmd.toNat) r] }) ∧
      (cmd = 0x2008#16 → s.cfg.hasDiscretes = true → dev { s.dev with dout := r }) ∧
      (cmd = 0x200A#16 → s.cfg.hasNpu = true → dev { s.dev with npu := false }) ∧
      (s.cfg.hasConsole = true →
        (cmd = 0x4000#16 → s.cfg.consoleConnected = true →
          let hi := BitVec.ofNat 8 (r.toNat / 256)
          let lo := BitVec.ofNat 8 r.toNat
          dev { s.dev with
            consoleOut := s.dev.consoleOut ++ [hi, lo], outputs := s.dev.outputs ++ [.console hi, .console lo] }) ∧
        (cmd = 0x4000#16 → s.cfg.consoleConnected = false → dev s.dev) ∧
        (cmd = 0x4001#16 → dev { s.dev with consoleIn := [], consoleOut := [] })) ∧
      (s.cfg.hasDma = true →
        (cmd = 0x4006#16 → dev { s.dev with dmaEn := true }) ∧ (cmd = 0x4007#16 → dev { s.dev with dmaEn := false })) ∧
      (s.cfg.hasTimers = true →
        (cmd = 0x4008#16 → dev { s.dev with taRun := true }) ∧ (cmd = 0x4009#16 → dev { s.dev with taRun := false }) ∧
          (cmd = 0x400A#16 → dev { s.dev with ta := r, taRun := true }) ∧
          (cmd = 0x400C#16 → dev { s.dev with tbRun := true }) ∧ (cmd = 0x400D#16 → dev { s.dev with tbRun := false }) ∧
          (cmd = 0x400E#16 → dev { s.dev with tb := r, tbRun := true })) ∧
      (cmd = 0x400B#16 → s.cfg.hasGo = true →
        dev { s.dev with goCount := 0, goHigh := true, outputs := s.dev.outputs ++ [.go] }) ∧
      (s.cfg.surom ≠ none →
        (cmd = 0x4004#16 → ctl { s.ctl with suromEn := true }) ∧ (cmd = 0x4005#16 →
          ctl { s.ctl with suromEn := false })) ∧
      (s.cfg.hasMprot = true →
        (cmd = 0x4003#16 → ctl { s.ctl with mprotEn := true }) ∧
          ∀ a : Fin 128, cmd.toNat = 0x5000 + a.val → ctl { s.ctl with mpr := s.ctl.mpr.set a.val r a.isLt }) ∧
      (∀ m, s.cfg.mmu = some m →
        let v := if m.hasLock then r &&& 0xF8FF#16 else r &&& 0x08FF#16
        ∀ a : Fin 256, a.val < 16 * m.groups.toNat →
          (cmd.toNat = 0x5100 + a.val → ctl { s.ctl with iPage := s.ctl.iPage.set a.val v a.isLt }) ∧
            (cmd.toNat = 0x5200 + a.val → ctl { s.ctl with oPage := s.ctl.oPage.set a.val v a.isLt }))

/-- The input commands: each puts the register it names in RA and CS stays; RIC ends the hold of its IOIC, which then shows
the channel of highest priority still requesting (any priorities: entry 42), RCFR clears the fault register and PI bit
1, and an input port or a console without two bytes yields any value (entry 27). -/
def Obligations.InputCommands : Prop :=
  ∀ (s : State) (ra rx : Reg) (addr : Word), s.ps = 0#4 →
    let cmd := s.daLong addr rx
    let reads (t : State) (v : Word) : Prop := exec (.xio ra rx addr) s = .next (t.after (set1 s.reg ra v) s.cs 0 (s.ic + 2))
    let shows (c : BitVec 7) (l : List (BitVec 7)) (old : BitVec 7) : Prop :=
      (l = [] → c = old) ∧ (l ≠ [] → c ∈ l) ∧ ∀ d ∈ l, Config.channelRank d ≤ Config.channelRank c
    (cmd = 0xA000#16 → reads s s.mask) ∧ (cmd = 0xA004#16 → reads s s.pi) ∧ (cmd = 0xA00E#16 → reads s s.sw) ∧
      (cmd = 0xA00F#16 → reads { s with ft := 0, pi := s.pi &&& 0xBFFF#16 } s.ft) ∧
      (s.cfg.hasIoic = true →
        (cmd = 0xA001#16 → ∃ c, shows c s.dev.ioicRequests1 s.dev.ioic1 ∧
          reads { s with dev := { s.dev with ioic1 := c, ioicHold1 := false } } (BitVec.ofNat 16 s.dev.ioic1.toNat)) ∧
          (cmd = 0xA002#16 → ∃ c, shows c s.dev.ioicRequests2 s.dev.ioic2 ∧
            reads { s with dev := { s.dev with ioic2 := c, ioicHold2 := false } } (BitVec.ofNat 16 s.dev.ioic2.toNat))) ∧
      (s.cfg.hasDiscretes = true → (cmd = 0xA008#16 → reads s s.dev.dout) ∧ (cmd = 0xA009#16 → reads s s.dev.din)) ∧
      (s.cfg.hasPio = true → (cmd = 0xA00B#16 → reads s s.dev.pobuf) ∧
        (0x8000 ≤ cmd.toNat → cmd.toNat < 0x8400 → ∃ v, reads (s.spend 1) v)) ∧
      (cmd = 0xA00D#16 → s.cfg.hasMfsr = true → reads s s.mfsr) ∧
      (s.cfg.hasTimers = true → (cmd = 0xC00A#16 → reads s s.dev.ta) ∧ (cmd = 0xC00E#16 → reads s s.dev.tb)) ∧
      (s.cfg.hasConsole = true →
        (cmd = 0xC001#16 → reads s s.dev.consoleStatus) ∧
          (cmd = 0xC000#16 → s.cfg.consoleConnected = true → ∀ b1 b2 rest, s.dev.consoleIn = b1 :: b2 :: rest →
            reads { s with dev := { s.dev with consoleIn := rest } } (b1 ++ b2)) ∧
          (cmd = 0xC000#16 → (s.cfg.consoleConnected = false ∨ s.dev.consoleIn.length < 2) → ∃ v,
            reads (s.spend 1) v)) ∧
      (s.cfg.hasMprot = true → ∀ a : Fin 128, cmd.toNat = 0xD000 + a.val → reads s s.ctl.mpr[a]) ∧
      (∀ m, s.cfg.mmu = some m →
        ∀ a : Fin 256, a.val < 16 * m.groups.toNat →
          (cmd.toNat = 0xD100 + a.val → reads s s.ctl.iPage[a]) ∧ (cmd.toNat = 0xD200 + a.val → reads s s.ctl.oPage[a]))

/-- A machine with no option implements exactly eleven commands and its spare ones; all sixteen bits of a command take
part. A command that is not implemented sets FT bit 5 and PI bit 1 and the instruction is otherwise a no-operation. -/
def Obligations.CommandSet : Prop :=
  (∀ (c : Config) (cmd : Word), c.mmu = none → c.hasMfsr = false → c.hasMprot = false → c.surom = none →
    c.hasTimers = false →
    c.hasIoic = false → c.hasDma = false → c.hasConsole = false → c.hasDiscretes = false → c.hasNpu = false →
      c.hasGo = false →
    c.hasPio = false →
      ((xioCommand c cmd).isSome = true ↔
        cmd ∈ [0x2000#16, 0x2001#16, 0x2002#16, 0x2003#16, 0x2004#16, 0x2005#16, 0x200E#16, 0xA000#16, 0xA004#16,
          0xA00E#16,
          0xA00F#16] ∨ cmd ∈ c.spareXio)) ∧
    ∀ (s : State) (ra rx : Reg) (addr : Word), s.ps = 0#4 → xioCommand s.cfg (s.daLong addr rx) = none →
      exec (.xio ra rx addr) s =
        .next { s with
          ft := s.ft ||| 0x0400#16, pi := s.pi ||| 0x4000#16, spiHold := releaseHold 0x4000#16 s.spiHold, ic := s.ic + 2 }

/-- VIO: the words at the derived address are the command base and the select word. The selected bits run in rising order:
bit `k` runs the command base + k * RA with the next data word, an output taken from memory, an input stored there,
each command using up one word (decision D23); IC then goes past the VIO. With no bit selected only IC moves. At any
place of the chain an unimplemented command sets FT bit 5 and PI bit 1 and ends it: no later bit's command is run, what
the earlier ones did stands, IC goes past the VIO. A command that faults, or a data word, ends it at the fault (entry
5). -/
def Obligations.VectoredInputOutput : Prop :=
  ∀ (s : State) (ra rx : Reg) (addr base sel : Word), s.ps = 0#4 → s.mem.wf = true →
    s.read (s.daLong addr rx) = .ok base → (s.turns 1).read (s.daLong addr rx + 1) = .ok sel →
    let o := exec (.vio ra rx addr) s
    let u := s.turns 2
    let data (j : Nat) : Word := s.daLong addr rx + 2 + BitVec.ofNat 16 j
    let cmd (k : Nat) : Option XioCmd := xioCommand s.cfg (base + BitVec.ofNat 16 k * s.reg ra)
    let selected : List Nat := (List.range 16).filter fun k => sel.getLsbD (15 - k)
    let performs (k j : Nat) (a t : State) : Prop :=
      (∃ c w, cmd k = some (.output c) ∧ a.read (data j) = .ok w ∧ (a.turns 1).output c w = .done t) ∨
        ∃ c pa, cmd k = some (.input c) ∧ (a.input c).2.writable (data j) pa ∧
          StoredInTurn (a.input c).2 [(pa, (a.input c).1)] t
    let faulted (t : State) (f : FaultReq) : Prop :=
      ∃ ic, o = .next (t.afterFault (bitMask (f.bit.number s.cfg)) f.bit f.designators ic)
    (selected = [] → o = .next (u.after s.reg s.cs 0 (s.ic + 2))) ∧
      (∀ t, RunsInTurn performs selected 0 u t → o = .next { t with ic := s.ic + 2 }) ∧
      (∀ k c pa, selected = [k] → cmd k = some (.input c) → (u.input c).2.writable (data 0) pa →
        Stores o (u.input c).2 [(pa, (u.input c).1)] fun t => { t with ic := s.ic + 2 }) ∧
      ∀ earlier k later t, selected = earlier ++ k :: later → RunsInTurn performs earlier 0 u t →
        (cmd k = none → o = .next { t with
          ft := t.ft ||| 0x0400#16, pi := t.pi ||| 0x4000#16, spiHold := releaseHold 0x4000#16 t.spiHold, ic := s.ic + 2 }) ∧
        (∀ c f, cmd k = some (.output c) → t.read (data earlier.length) = .error (.fault f) → faulted (t.turns 1) f) ∧
        (∀ c w f v, cmd k = some (.output c) → t.read (data earlier.length) = .ok w →
          (t.turns 1).output c w = .faulted f v → faulted v f) ∧
        ∀ c f, cmd k = some (.input c) →
          let v := (t.input c).2
          groupImplemented v.cfg v.as = true → v.translate .cpu .write v.as (some v.ps) (data earlier.length) = .error f →
            ∃ ic n, o = .next { (v.turns 1).afterFault (bitMask (f.bit.number s.cfg)) f.bit f.designators ic with
              freeCount := n }

/-! ### The outside -/

/-- What each signal of the outside changes. A timer that runs counts up and requests its interrupt as it reaches zero; a
channel request of either level sets its PI bit, and IOIC, unless it is held, shows the requesting channel of highest
priority (any priorities: entries 38, 42); an interrupt signal sets PI 0, 2, 8 or 10 to 15 (entry 36); every fault
signal sets its FT bit and PI bit 1, parity also MFSR and only with HAS_PARITY (entry 40). A DMA reference, mapped or not, does nothing
while DMA is disabled or its group does not exist (entry 31); enabled, a store changes one word of memory, a read
returns the word (the ROM's where that overlays) and changes nothing else, and a fault of its translation or
protection sets FT, PI and MFSR only (of an unmapped reference, any LPA and AS: entry 30). DMA placed before a word
reference of the CPU does the same there. That these are events of a schedule is the model's form (decisions D5, D21;
entries 20, 21). -/
def Obligations.OutsideEvents : Prop :=
  ∀ s : State,
    let asked (k : BitVec 4) : Word := s.pi ||| BitVec.twoPow 16 (15 - k.toNat)
    let faults (t : State) (ft mfsr : Word) (drawn : Nat) : Prop :=
      t = { s with
        ft := s.ft ||| ft, pi := s.pi ||| 0x4000#16, spiHold := releaseHold 0x4000#16 s.spiHold
        mfsr := if s.cfg.hasMfsr then mfsr else s.mfsr, freeCount := s.freeCount + drawn }
    let bit (f : FaultSignal) : Nat :=
      match f with
      | .parity _ _ _ => 2
      | .pioParity => 3
      | .dmaParity => 4
      | .pioTransmission => 6
      | .spare7 => 7
      | .bite => 13
      | .spareBite14 => 14
      | .spareBite15 => 15
    let shown (held : Bool) (before : List (BitVec 7)) (number : BitVec 7) (l : List (BitVec 7)) (old c : BitVec 7) : Prop :=
      (∀ d, d ∈ l ↔ d = number ∨ d ∈ before) ∧ (held = true → c = old) ∧
        (held = false → c ∈ l ∧ ∀ d ∈ l, Config.channelRank d ≤ Config.channelRank c)
    let reaches (r : DmaRef) (pa : Nat) : Prop :=
      match r.action, r.address with
      | .read, .physical q => s.checkPhysical .dma .read 0 q.toNat = .ok pa
      | .read, .logical la as key => s.translate .dma .read as (some key) la = .ok pa
      | .write _, .physical q => s.checkPhysical .dma .write 0 q.toNat = .ok pa
      | .write _, .logical la as key => s.translate .dma .write as (some key) la = .ok pa
    let moves (r : DmaRef) (t : State) (pa : Nat) : Prop :=
      match r.action with
      | .read =>
        t = { s with dma := { s.dma with
          received := s.dma.received ++ [if s.romOverlay pa then Memory.readWord s.rom pa else Memory.readWord s.mem pa] } }
      | .write w => Written s pa w t
    (∀ run, s.cfg.hasTimers = true →
        (s.dev.taRun = run → s.applyEvent .tickA =
          if run then { s with
            dev := { s.dev with ta := s.dev.ta + 1 }
            pi := if s.dev.ta = 0xFFFF#16 then asked s.cfg.intTimerA else s.pi
            spiHold := if s.dev.ta = 0xFFFF#16 then releaseHold (bitMask s.cfg.intTimerA) s.spiHold else s.spiHold }
          else s) ∧
        (s.dev.tbRun = run → s.applyEvent .tickB =
          if run then { s with
            dev := { s.dev with tb := s.dev.tb + 1 }
            pi := if s.dev.tb = 0xFFFF#16 then asked s.cfg.intTimerB else s.pi
            spiHold := if s.dev.tb = 0xFFFF#16 then releaseHold (bitMask s.cfg.intTimerB) s.spiHold else s.spiHold }
          else s)) ∧
      (s.cfg.hasTimers = false → s.applyEvent .tickA = s ∧ s.applyEvent .tickB = s) ∧
      (∀ number, ∃ (c1 c2 : BitVec 7) (l1 l2 : List (BitVec 7)),
        shown s.dev.ioicHold1 s.dev.ioicRequests1 number l1 s.dev.ioic1 c1 ∧
        shown s.dev.ioicHold2 s.dev.ioicRequests2 number l2 s.dev.ioic2 c2 ∧
        s.applyEvent (.channel .level1 number) = { s with
          dev := if s.cfg.hasIoic then { s.dev with ioic1 := c1, ioicRequests1 := l1 } else s.dev
          pi := asked s.cfg.intIo1, spiHold := releaseHold (bitMask s.cfg.intIo1) s.spiHold } ∧
        s.applyEvent (.channel .level2 number) = { s with
          dev := if s.cfg.hasIoic then { s.dev with ioic2 := c2, ioicRequests2 := l2 } else s.dev
          pi := asked s.cfg.intIo2, spiHold := releaseHold (bitMask s.cfg.intIo2) s.spiHold }) ∧
      (∀ n : BitVec 4, (s.applyEvent (.interrupt n)).pi =
        if n.toNat ∈ [0, 2, 8, 10, 11, 12, 13, 14, 15] then asked n else s.pi) ∧
      (∀ la i as, let t := s.applyEvent (.fault (.parity la i as))
        (s.cfg.hasParity = false → t = s) ∧ (s.cfg.hasParity = true → faults t 0x2000#16 (designatorsOf la i as) 0)) ∧
      (∀ f, (∀ la i as, f ≠ .parity la i as) →
        faults (s.applyEvent (.fault f)) (BitVec.twoPow 16 (15 - bit f)) s.mfsr 0) ∧
      (∀ r : DmaRef, let t := s.applyEvent (.dma r)
        (s.cfg.hasDma = false ∨ s.dev.dmaEn = false ∨
            (∃ la as key, r.address = .logical la as key ∧ groupImplemented s.cfg as = false) → t = s) ∧
          (s.cfg.hasDma = true → s.dev.dmaEn = true →
            (∀ la as key, r.address = .logical la as key → groupImplemented s.cfg as = true) →
            (∀ pa, s.mem.wf = true → reaches r pa → moves r t pa) ∧
            (∀ la as key k f, r.address = .logical la as key → (k = .read ∨ k = .write) → (k = .read ↔ r.action = .read) →
              s.translate .dma k as (some key) la = .error f →
                ∃ d, f.designators = some d ∧ faults t (bitMask (f.bit.number s.cfg)) d 2) ∧
            ∀ pa k b, r.address = .physical pa → (k = .read ∨ k = .write) → (k = .read ↔ r.action = .read) →
              s.checkPhysical .dma k 0 pa.toNat = .error ⟨b, some 0⟩ →
                ∃ d, d &&& 0x0FF0#16 = 0#16 ∧ faults t (bitMask (b.number s.cfg)) d 2)) ∧
      (∀ (r : DmaRef) (rest : List (List DmaRef)), s.dma.slots = [r] :: rest →
        s.turn = ({ s with dma := { s.dma with slots := rest } }).applyEvent (.dma r)) ∧
      (s.dma.slots = [] → s.turn = s)
end

