-- ==== Sys2Proof/Laws/State.lean ====
section
/-! SUPPORT. One lemma per field per update: what each update of the state leaves alone. -/

namespace Sys2Proof.Machine

variable (s : State)

/-! ### `setReg` -/

@[simp] theorem State.setReg_cfg (r : Reg) (v : Word) : (s.setReg r v).cfg = s.cfg := rfl

@[simp] theorem State.setReg_regs (r : Reg) (v : Word) : (s.setReg r v).regs = s.regs.set r.toNat v r.isLt := rfl

@[simp] theorem State.setReg_ic (r : Reg) (v : Word) : (s.setReg r v).ic = s.ic := rfl

@[simp] theorem State.setReg_sw (r : Reg) (v : Word) : (s.setReg r v).sw = s.sw := rfl

@[simp] theorem State.setReg_ft (r : Reg) (v : Word) : (s.setReg r v).ft = s.ft := rfl

@[simp] theorem State.setReg_mask (r : Reg) (v : Word) : (s.setReg r v).mask = s.mask := rfl

@[simp] theorem State.setReg_pi (r : Reg) (v : Word) : (s.setReg r v).pi = s.pi := rfl

@[simp] theorem State.setReg_ien (r : Reg) (v : Word) : (s.setReg r v).ien = s.ien := rfl

@[simp] theorem State.setReg_enblPending (r : Reg) (v : Word) : (s.setReg r v).enblPending = s.enblPending := rfl

@[simp] theorem State.setReg_spiHold (r : Reg) (v : Word) : (s.setReg r v).spiHold = s.spiHold := rfl

@[simp] theorem State.setReg_mfsr (r : Reg) (v : Word) : (s.setReg r v).mfsr = s.mfsr := rfl

@[simp] theorem State.setReg_ctl (r : Reg) (v : Word) : (s.setReg r v).ctl = s.ctl := rfl

@[simp] theorem State.setReg_dev (r : Reg) (v : Word) : (s.setReg r v).dev = s.dev := rfl

@[simp] theorem State.setReg_mem (r : Reg) (v : Word) : (s.setReg r v).mem = s.mem := rfl

@[simp] theorem State.setReg_rom (r : Reg) (v : Word) : (s.setReg r v).rom = s.rom := rfl

@[simp] theorem State.setReg_resumeIc (r : Reg) (v : Word) : (s.setReg r v).resumeIc = s.resumeIc := rfl

@[simp] theorem State.setReg_halted (r : Reg) (v : Word) : (s.setReg r v).halted = s.halted := rfl

@[simp] theorem State.setReg_schedule (r : Reg) (v : Word) : (s.setReg r v).schedule = s.schedule := rfl

@[simp] theorem State.setReg_dma (r : Reg) (v : Word) : (s.setReg r v).dma = s.dma := rfl

@[simp] theorem State.setReg_raised (r : Reg) (v : Word) : (s.setReg r v).raised = s.raised := rfl

@[simp] theorem State.setReg_freeCount (r : Reg) (v : Word) : (s.setReg r v).freeCount = s.freeCount := rfl

/-! ### `setPair` -/

@[simp] theorem State.setPair_cfg (r : Reg) (v : Long) : (s.setPair r v).cfg = s.cfg := rfl

@[simp] theorem State.setPair_ic (r : Reg) (v : Long) : (s.setPair r v).ic = s.ic := rfl

@[simp] theorem State.setPair_sw (r : Reg) (v : Long) : (s.setPair r v).sw = s.sw := rfl

@[simp] theorem State.setPair_ft (r : Reg) (v : Long) : (s.setPair r v).ft = s.ft := rfl

@[simp] theorem State.setPair_mask (r : Reg) (v : Long) : (s.setPair r v).mask = s.mask := rfl

@[simp] theorem State.setPair_pi (r : Reg) (v : Long) : (s.setPair r v).pi = s.pi := rfl

@[simp] theorem State.setPair_ien (r : Reg) (v : Long) : (s.setPair r v).ien = s.ien := rfl

@[simp] theorem State.setPair_enblPending (r : Reg) (v : Long) : (s.setPair r v).enblPending = s.enblPending := rfl

@[simp] theorem State.setPair_spiHold (r : Reg) (v : Long) : (s.setPair r v).spiHold = s.spiHold := rfl

@[simp] theorem State.setPair_mfsr (r : Reg) (v : Long) : (s.setPair r v).mfsr = s.mfsr := rfl

@[simp] theorem State.setPair_ctl (r : Reg) (v : Long) : (s.setPair r v).ctl = s.ctl := rfl

@[simp] theorem State.setPair_dev (r : Reg) (v : Long) : (s.setPair r v).dev = s.dev := rfl

@[simp] theorem State.setPair_mem (r : Reg) (v : Long) : (s.setPair r v).mem = s.mem := rfl

@[simp] theorem State.setPair_rom (r : Reg) (v : Long) : (s.setPair r v).rom = s.rom := rfl

@[simp] theorem State.setPair_resumeIc (r : Reg) (v : Long) : (s.setPair r v).resumeIc = s.resumeIc := rfl

@[simp] theorem State.setPair_halted (r : Reg) (v : Long) : (s.setPair r v).halted = s.halted := rfl

@[simp] theorem State.setPair_schedule (r : Reg) (v : Long) : (s.setPair r v).schedule = s.schedule := rfl

@[simp] theorem State.setPair_dma (r : Reg) (v : Long) : (s.setPair r v).dma = s.dma := rfl

@[simp] theorem State.setPair_raised (r : Reg) (v : Long) : (s.setPair r v).raised = s.raised := rfl

@[simp] theorem State.setPair_freeCount (r : Reg) (v : Long) : (s.setPair r v).freeCount = s.freeCount := rfl

/-! ### `setTriple` -/

@[simp] theorem State.setTriple_cfg (r : Reg) (v : Ext) : (s.setTriple r v).cfg = s.cfg := rfl

@[simp] theorem State.setTriple_ic (r : Reg) (v : Ext) : (s.setTriple r v).ic = s.ic := rfl

@[simp] theorem State.setTriple_sw (r : Reg) (v : Ext) : (s.setTriple r v).sw = s.sw := rfl

@[simp] theorem State.setTriple_ft (r : Reg) (v : Ext) : (s.setTriple r v).ft = s.ft := rfl

@[simp] theorem State.setTriple_mask (r : Reg) (v : Ext) : (s.setTriple r v).mask = s.mask := rfl

@[simp] theorem State.setTriple_pi (r : Reg) (v : Ext) : (s.setTriple r v).pi = s.pi := rfl

@[simp] theorem State.setTriple_ien (r : Reg) (v : Ext) : (s.setTriple r v).ien = s.ien := rfl

@[simp] theorem State.setTriple_enblPending (r : Reg) (v : Ext) : (s.setTriple r v).enblPending = s.enblPending := rfl

@[simp] theorem State.setTriple_spiHold (r : Reg) (v : Ext) : (s.setTriple r v).spiHold = s.spiHold := rfl

@[simp] theorem State.setTriple_mfsr (r : Reg) (v : Ext) : (s.setTriple r v).mfsr = s.mfsr := rfl

@[simp] theorem State.setTriple_ctl (r : Reg) (v : Ext) : (s.setTriple r v).ctl = s.ctl := rfl

@[simp] theorem State.setTriple_dev (r : Reg) (v : Ext) : (s.setTriple r v).dev = s.dev := rfl

@[simp] theorem State.setTriple_mem (r : Reg) (v : Ext) : (s.setTriple r v).mem = s.mem := rfl

@[simp] theorem State.setTriple_rom (r : Reg) (v : Ext) : (s.setTriple r v).rom = s.rom := rfl

@[simp] theorem State.setTriple_resumeIc (r : Reg) (v : Ext) : (s.setTriple r v).resumeIc = s.resumeIc := rfl

@[simp] theorem State.setTriple_halted (r : Reg) (v : Ext) : (s.setTriple r v).halted = s.halted := rfl

@[simp] theorem State.setTriple_schedule (r : Reg) (v : Ext) : (s.setTriple r v).schedule = s.schedule := rfl

@[simp] theorem State.setTriple_dma (r : Reg) (v : Ext) : (s.setTriple r v).dma = s.dma := rfl

@[simp] theorem State.setTriple_raised (r : Reg) (v : Ext) : (s.setTriple r v).raised = s.raised := rfl

@[simp] theorem State.setTriple_freeCount (r : Reg) (v : Ext) : (s.setTriple r v).freeCount = s.freeCount := rfl

/-! ### `setIc` -/

@[simp] theorem State.setIc_cfg (v : Word) : (s.setIc v).cfg = s.cfg := rfl

@[simp] theorem State.setIc_regs (v : Word) : (s.setIc v).regs = s.regs := rfl

@[simp] theorem State.setIc_ic (v : Word) : (s.setIc v).ic = v := rfl

@[simp] theorem State.setIc_sw (v : Word) : (s.setIc v).sw = s.sw := rfl

@[simp] theorem State.setIc_ft (v : Word) : (s.setIc v).ft = s.ft := rfl

@[simp] theorem State.setIc_mask (v : Word) : (s.setIc v).mask = s.mask := rfl

@[simp] theorem State.setIc_pi (v : Word) : (s.setIc v).pi = s.pi := rfl

@[simp] theorem State.setIc_ien (v : Word) : (s.setIc v).ien = s.ien := rfl

@[simp] theorem State.setIc_enblPending (v : Word) : (s.setIc v).enblPending = s.enblPending := rfl

@[simp] theorem State.setIc_spiHold (v : Word) : (s.setIc v).spiHold = s.spiHold := rfl

@[simp] theorem State.setIc_mfsr (v : Word) : (s.setIc v).mfsr = s.mfsr := rfl

@[simp] theorem State.setIc_ctl (v : Word) : (s.setIc v).ctl = s.ctl := rfl

@[simp] theorem State.setIc_dev (v : Word) : (s.setIc v).dev = s.dev := rfl

@[simp] theorem State.setIc_mem (v : Word) : (s.setIc v).mem = s.mem := rfl

@[simp] theorem State.setIc_rom (v : Word) : (s.setIc v).rom = s.rom := rfl

@[simp] theorem State.setIc_resumeIc (v : Word) : (s.setIc v).resumeIc = s.resumeIc := rfl

@[simp] theorem State.setIc_halted (v : Word) : (s.setIc v).halted = s.halted := rfl

@[simp] theorem State.setIc_schedule (v : Word) : (s.setIc v).schedule = s.schedule := rfl

@[simp] theorem State.setIc_dma (v : Word) : (s.setIc v).dma = s.dma := rfl

@[simp] theorem State.setIc_raised (v : Word) : (s.setIc v).raised = s.raised := rfl

@[simp] theorem State.setIc_freeCount (v : Word) : (s.setIc v).freeCount = s.freeCount := rfl

/-! ### `advance` -/

@[simp] theorem State.advance_cfg (n : Word) : (s.advance n).cfg = s.cfg := rfl

@[simp] theorem State.advance_regs (n : Word) : (s.advance n).regs = s.regs := rfl

@[simp] theorem State.advance_ic (n : Word) : (s.advance n).ic = s.ic + n := rfl

@[simp] theorem State.advance_sw (n : Word) : (s.advance n).sw = s.sw := rfl

@[simp] theorem State.advance_ft (n : Word) : (s.advance n).ft = s.ft := rfl

@[simp] theorem State.advance_mask (n : Word) : (s.advance n).mask = s.mask := rfl

@[simp] theorem State.advance_pi (n : Word) : (s.advance n).pi = s.pi := rfl

@[simp] theorem State.advance_ien (n : Word) : (s.advance n).ien = s.ien := rfl

@[simp] theorem State.advance_enblPending (n : Word) : (s.advance n).enblPending = s.enblPending := rfl

@[simp] theorem State.advance_spiHold (n : Word) : (s.advance n).spiHold = s.spiHold := rfl

@[simp] theorem State.advance_mfsr (n : Word) : (s.advance n).mfsr = s.mfsr := rfl

@[simp] theorem State.advance_ctl (n : Word) : (s.advance n).ctl = s.ctl := rfl

@[simp] theorem State.advance_dev (n : Word) : (s.advance n).dev = s.dev := rfl

@[simp] theorem State.advance_mem (n : Word) : (s.advance n).mem = s.mem := rfl

@[simp] theorem State.advance_rom (n : Word) : (s.advance n).rom = s.rom := rfl

@[simp] theorem State.advance_resumeIc (n : Word) : (s.advance n).resumeIc = s.resumeIc := rfl

@[simp] theorem State.advance_halted (n : Word) : (s.advance n).halted = s.halted := rfl

@[simp] theorem State.advance_schedule (n : Word) : (s.advance n).schedule = s.schedule := rfl

@[simp] theorem State.advance_dma (n : Word) : (s.advance n).dma = s.dma := rfl

@[simp] theorem State.advance_raised (n : Word) : (s.advance n).raised = s.raised := rfl

@[simp] theorem State.advance_freeCount (n : Word) : (s.advance n).freeCount = s.freeCount := rfl

/-! ### `setCs` -/

@[simp] theorem State.setCs_cfg (v : BitVec 4) : (s.setCs v).cfg = s.cfg := rfl

@[simp] theorem State.setCs_regs (v : BitVec 4) : (s.setCs v).regs = s.regs := rfl

@[simp] theorem State.setCs_ic (v : BitVec 4) : (s.setCs v).ic = s.ic := rfl

@[simp] theorem State.setCs_sw (v : BitVec 4) : (s.setCs v).sw = (v ++ s.sw.extractLsb' 0 12 : BitVec (4 + 12)) := rfl

@[simp] theorem State.setCs_ft (v : BitVec 4) : (s.setCs v).ft = s.ft := rfl

@[simp] theorem State.setCs_mask (v : BitVec 4) : (s.setCs v).mask = s.mask := rfl

@[simp] theorem State.setCs_pi (v : BitVec 4) : (s.setCs v).pi = s.pi := rfl

@[simp] theorem State.setCs_ien (v : BitVec 4) : (s.setCs v).ien = s.ien := rfl

@[simp] theorem State.setCs_enblPending (v : BitVec 4) : (s.setCs v).enblPending = s.enblPending := rfl

@[simp] theorem State.setCs_spiHold (v : BitVec 4) : (s.setCs v).spiHold = s.spiHold := rfl

@[simp] theorem State.setCs_mfsr (v : BitVec 4) : (s.setCs v).mfsr = s.mfsr := rfl

@[simp] theorem State.setCs_ctl (v : BitVec 4) : (s.setCs v).ctl = s.ctl := rfl

@[simp] theorem State.setCs_dev (v : BitVec 4) : (s.setCs v).dev = s.dev := rfl

@[simp] theorem State.setCs_mem (v : BitVec 4) : (s.setCs v).mem = s.mem := rfl

@[simp] theorem State.setCs_rom (v : BitVec 4) : (s.setCs v).rom = s.rom := rfl

@[simp] theorem State.setCs_resumeIc (v : BitVec 4) : (s.setCs v).resumeIc = s.resumeIc := rfl

@[simp] theorem State.setCs_halted (v : BitVec 4) : (s.setCs v).halted = s.halted := rfl

@[simp] theorem State.setCs_schedule (v : BitVec 4) : (s.setCs v).schedule = s.schedule := rfl

@[simp] theorem State.setCs_dma (v : BitVec 4) : (s.setCs v).dma = s.dma := rfl

@[simp] theorem State.setCs_raised (v : BitVec 4) : (s.setCs v).raised = s.raised := rfl

@[simp] theorem State.setCs_freeCount (v : BitVec 4) : (s.setCs v).freeCount = s.freeCount := rfl

/-! ### `spend` -/

@[simp] theorem State.spend_cfg (n : Nat) : (s.spend n).cfg = s.cfg := rfl

@[simp] theorem State.spend_regs (n : Nat) : (s.spend n).regs = s.regs := rfl

@[simp] theorem State.spend_ic (n : Nat) : (s.spend n).ic = s.ic := rfl

@[simp] theorem State.spend_sw (n : Nat) : (s.spend n).sw = s.sw := rfl

@[simp] theorem State.spend_ft (n : Nat) : (s.spend n).ft = s.ft := rfl

@[simp] theorem State.spend_mask (n : Nat) : (s.spend n).mask = s.mask := rfl

@[simp] theorem State.spend_pi (n : Nat) : (s.spend n).pi = s.pi := rfl

@[simp] theorem State.spend_ien (n : Nat) : (s.spend n).ien = s.ien := rfl

@[simp] theorem State.spend_enblPending (n : Nat) : (s.spend n).enblPending = s.enblPending := rfl

@[simp] theorem State.spend_spiHold (n : Nat) : (s.spend n).spiHold = s.spiHold := rfl

@[simp] theorem State.spend_mfsr (n : Nat) : (s.spend n).mfsr = s.mfsr := rfl

@[simp] theorem State.spend_ctl (n : Nat) : (s.spend n).ctl = s.ctl := rfl

@[simp] theorem State.spend_dev (n : Nat) : (s.spend n).dev = s.dev := rfl

@[simp] theorem State.spend_mem (n : Nat) : (s.spend n).mem = s.mem := rfl

@[simp] theorem State.spend_rom (n : Nat) : (s.spend n).rom = s.rom := rfl

@[simp] theorem State.spend_resumeIc (n : Nat) : (s.spend n).resumeIc = s.resumeIc := rfl

@[simp] theorem State.spend_halted (n : Nat) : (s.spend n).halted = s.halted := rfl

@[simp] theorem State.spend_schedule (n : Nat) : (s.spend n).schedule = s.schedule := rfl

@[simp] theorem State.spend_dma (n : Nat) : (s.spend n).dma = s.dma := rfl

@[simp] theorem State.spend_raised (n : Nat) : (s.spend n).raised = s.raised := rfl

@[simp] theorem State.spend_freeCount (n : Nat) : (s.spend n).freeCount = s.freeCount + n := rfl

/-! ### `writeSw` -/

@[simp] theorem State.writeSw_cfg (v : Word) : (s.writeSw v).cfg = s.cfg := by
  unfold State.writeSw; split <;> rfl

@[simp] theorem State.writeSw_regs (v : Word) : (s.writeSw v).regs = s.regs := by
  unfold State.writeSw; split <;> rfl

@[simp] theorem State.writeSw_ic (v : Word) : (s.writeSw v).ic = s.ic := by
  unfold State.writeSw; split <;> rfl

@[simp] theorem State.writeSw_ft (v : Word) : (s.writeSw v).ft = s.ft := by
  unfold State.writeSw; split <;> rfl

@[simp] theorem State.writeSw_mask (v : Word) : (s.writeSw v).mask = s.mask := by
  unfold State.writeSw; split <;> rfl

@[simp] theorem State.writeSw_pi (v : Word) : (s.writeSw v).pi = s.pi := by
  unfold State.writeSw; split <;> rfl

@[simp] theorem State.writeSw_ien (v : Word) : (s.writeSw v).ien = s.ien := by
  unfold State.writeSw; split <;> rfl

@[simp] theorem State.writeSw_enblPending (v : Word) : (s.writeSw v).enblPending = s.enblPending := by
  unfold State.writeSw; split <;> rfl

@[simp] theorem State.writeSw_spiHold (v : Word) : (s.writeSw v).spiHold = s.spiHold := by
  unfold State.writeSw; split <;> rfl

@[simp] theorem State.writeSw_mfsr (v : Word) : (s.writeSw v).mfsr = s.mfsr := by
  unfold State.writeSw; split <;> rfl

@[simp] theorem State.writeSw_ctl (v : Word) : (s.writeSw v).ctl = s.ctl := by
  unfold State.writeSw; split <;> rfl

@[simp] theorem State.writeSw_dev (v : Word) : (s.writeSw v).dev = s.dev := by
  unfold State.writeSw; split <;> rfl

@[simp] theorem State.writeSw_mem (v : Word) : (s.writeSw v).mem = s.mem := by
  unfold State.writeSw; split <;> rfl

@[simp] theorem State.writeSw_rom (v : Word) : (s.writeSw v).rom = s.rom := by
  unfold State.writeSw; split <;> rfl

@[simp] theorem State.writeSw_resumeIc (v : Word) : (s.writeSw v).resumeIc = s.resumeIc := by
  unfold State.writeSw; split <;> rfl

@[simp] theorem State.writeSw_halted (v : Word) : (s.writeSw v).halted = s.halted := by
  unfold State.writeSw; split <;> rfl

@[simp] theorem State.writeSw_schedule (v : Word) : (s.writeSw v).schedule = s.schedule := by
  unfold State.writeSw; split <;> rfl

@[simp] theorem State.writeSw_dma (v : Word) : (s.writeSw v).dma = s.dma := by
  unfold State.writeSw; split <;> rfl

@[simp] theorem State.writeSw_raised (v : Word) : (s.writeSw v).raised = s.raised := by
  unfold State.writeSw; split <;> rfl

/-! ### `requestMask` -/

@[simp] theorem State.requestMask_cfg (m : Word) : (s.requestMask m).cfg = s.cfg := rfl

@[simp] theorem State.requestMask_regs (m : Word) : (s.requestMask m).regs = s.regs := rfl

@[simp] theorem State.requestMask_ic (m : Word) : (s.requestMask m).ic = s.ic := rfl

@[simp] theorem State.requestMask_sw (m : Word) : (s.requestMask m).sw = s.sw := rfl

@[simp] theorem State.requestMask_ft (m : Word) : (s.requestMask m).ft = s.ft := rfl

@[simp] theorem State.requestMask_mask (m : Word) : (s.requestMask m).mask = s.mask := rfl

@[simp] theorem State.requestMask_pi (m : Word) : (s.requestMask m).pi = s.pi ||| m := rfl

@[simp] theorem State.requestMask_ien (m : Word) : (s.requestMask m).ien = s.ien := rfl

@[simp] theorem State.requestMask_enblPending (m : Word) : (s.requestMask m).enblPending = s.enblPending := rfl

@[simp] theorem State.requestMask_spiHold (m : Word) : (s.requestMask m).spiHold = releaseHold m s.spiHold := rfl

@[simp] theorem State.requestMask_mfsr (m : Word) : (s.requestMask m).mfsr = s.mfsr := rfl

@[simp] theorem State.requestMask_ctl (m : Word) : (s.requestMask m).ctl = s.ctl := rfl

@[simp] theorem State.requestMask_dev (m : Word) : (s.requestMask m).dev = s.dev := rfl

@[simp] theorem State.requestMask_mem (m : Word) : (s.requestMask m).mem = s.mem := rfl

@[simp] theorem State.requestMask_rom (m : Word) : (s.requestMask m).rom = s.rom := rfl

@[simp] theorem State.requestMask_resumeIc (m : Word) : (s.requestMask m).resumeIc = s.resumeIc := rfl

@[simp] theorem State.requestMask_halted (m : Word) : (s.requestMask m).halted = s.halted := rfl

@[simp] theorem State.requestMask_schedule (m : Word) : (s.requestMask m).schedule = s.schedule := rfl

@[simp] theorem State.requestMask_dma (m : Word) : (s.requestMask m).dma = s.dma := rfl

@[simp] theorem State.requestMask_raised (m : Word) : (s.requestMask m).raised = s.raised := rfl

@[simp] theorem State.requestMask_freeCount (m : Word) : (s.requestMask m).freeCount = s.freeCount := rfl

/-! ### `request` -/

@[simp] theorem State.request_cfg (n : BitVec 4) : (s.request n).cfg = s.cfg := rfl

@[simp] theorem State.request_regs (n : BitVec 4) : (s.request n).regs = s.regs := rfl

@[simp] theorem State.request_ic (n : BitVec 4) : (s.request n).ic = s.ic := rfl

@[simp] theorem State.request_sw (n : BitVec 4) : (s.request n).sw = s.sw := rfl

@[simp] theorem State.request_ft (n : BitVec 4) : (s.request n).ft = s.ft := rfl

@[simp] theorem State.request_mask (n : BitVec 4) : (s.request n).mask = s.mask := rfl

@[simp] theorem State.request_pi (n : BitVec 4) : (s.request n).pi = s.pi ||| bitMask n := rfl

@[simp] theorem State.request_ien (n : BitVec 4) : (s.request n).ien = s.ien := rfl

@[simp] theorem State.request_enblPending (n : BitVec 4) : (s.request n).enblPending = s.enblPending := rfl

@[simp] theorem State.request_spiHold (n : BitVec 4) : (s.request n).spiHold = releaseHold (bitMask n) s.spiHold := rfl

@[simp] theorem State.request_mfsr (n : BitVec 4) : (s.request n).mfsr = s.mfsr := rfl

@[simp] theorem State.request_ctl (n : BitVec 4) : (s.request n).ctl = s.ctl := rfl

@[simp] theorem State.request_dev (n : BitVec 4) : (s.request n).dev = s.dev := rfl

@[simp] theorem State.request_mem (n : BitVec 4) : (s.request n).mem = s.mem := rfl

@[simp] theorem State.request_rom (n : BitVec 4) : (s.request n).rom = s.rom := rfl

@[simp] theorem State.request_resumeIc (n : BitVec 4) : (s.request n).resumeIc = s.resumeIc := rfl

@[simp] theorem State.request_halted (n : BitVec 4) : (s.request n).halted = s.halted := rfl

@[simp] theorem State.request_schedule (n : BitVec 4) : (s.request n).schedule = s.schedule := rfl

@[simp] theorem State.request_dma (n : BitVec 4) : (s.request n).dma = s.dma := rfl

@[simp] theorem State.request_raised (n : BitVec 4) : (s.request n).raised = s.raised := rfl

@[simp] theorem State.request_freeCount (n : BitVec 4) : (s.request n).freeCount = s.freeCount := rfl

/-! ### `requestIf` -/

@[simp] theorem State.requestIf_cfg (b : Bool) (n : BitVec 4) : (s.requestIf b n).cfg = s.cfg := by
  cases b <;> rfl

@[simp] theorem State.requestIf_regs (b : Bool) (n : BitVec 4) : (s.requestIf b n).regs = s.regs := by
  cases b <;> rfl

@[simp] theorem State.requestIf_ic (b : Bool) (n : BitVec 4) : (s.requestIf b n).ic = s.ic := by
  cases b <;> rfl

@[simp] theorem State.requestIf_sw (b : Bool) (n : BitVec 4) : (s.requestIf b n).sw = s.sw := by
  cases b <;> rfl

@[simp] theorem State.requestIf_ft (b : Bool) (n : BitVec 4) : (s.requestIf b n).ft = s.ft := by
  cases b <;> rfl

@[simp] theorem State.requestIf_mask (b : Bool) (n : BitVec 4) : (s.requestIf b n).mask = s.mask := by
  cases b <;> rfl

@[simp] theorem State.requestIf_ien (b : Bool) (n : BitVec 4) : (s.requestIf b n).ien = s.ien := by
  cases b <;> rfl

@[simp] theorem State.requestIf_enblPending (b : Bool) (n : BitVec 4) : (s.requestIf b n).enblPending = s.enblPending := by
  cases b <;> rfl

@[simp] theorem State.requestIf_mfsr (b : Bool) (n : BitVec 4) : (s.requestIf b n).mfsr = s.mfsr := by
  cases b <;> rfl

@[simp] theorem State.requestIf_ctl (b : Bool) (n : BitVec 4) : (s.requestIf b n).ctl = s.ctl := by
  cases b <;> rfl

@[simp] theorem State.requestIf_dev (b : Bool) (n : BitVec 4) : (s.requestIf b n).dev = s.dev := by
  cases b <;> rfl

@[simp] theorem State.requestIf_mem (b : Bool) (n : BitVec 4) : (s.requestIf b n).mem = s.mem := by
  cases b <;> rfl

@[simp] theorem State.requestIf_rom (b : Bool) (n : BitVec 4) : (s.requestIf b n).rom = s.rom := by
  cases b <;> rfl

@[simp] theorem State.requestIf_resumeIc (b : Bool) (n : BitVec 4) : (s.requestIf b n).resumeIc = s.resumeIc := by
  cases b <;> rfl

@[simp] theorem State.requestIf_halted (b : Bool) (n : BitVec 4) : (s.requestIf b n).halted = s.halted := by
  cases b <;> rfl

@[simp] theorem State.requestIf_schedule (b : Bool) (n : BitVec 4) : (s.requestIf b n).schedule = s.schedule := by
  cases b <;> rfl

@[simp] theorem State.requestIf_dma (b : Bool) (n : BitVec 4) : (s.requestIf b n).dma = s.dma := by
  cases b <;> rfl

@[simp] theorem State.requestIf_raised (b : Bool) (n : BitVec 4) : (s.requestIf b n).raised = s.raised := by
  cases b <;> rfl

@[simp] theorem State.requestIf_freeCount (b : Bool) (n : BitVec 4) : (s.requestIf b n).freeCount = s.freeCount := by
  cases b <;> rfl

/-! ### `setFault` -/

@[simp] theorem State.setFault_cfg (f : FaultReq) : (s.setFault f).cfg = s.cfg := by
  unfold State.setFault; simp only; split <;> (try split) <;> rfl

@[simp] theorem State.setFault_regs (f : FaultReq) : (s.setFault f).regs = s.regs := by
  unfold State.setFault; simp only; split <;> (try split) <;> rfl

@[simp] theorem State.setFault_ic (f : FaultReq) : (s.setFault f).ic = s.ic := by
  unfold State.setFault; simp only; split <;> (try split) <;> rfl

@[simp] theorem State.setFault_sw (f : FaultReq) : (s.setFault f).sw = s.sw := by
  unfold State.setFault; simp only; split <;> (try split) <;> rfl

@[simp] theorem State.setFault_ft (f : FaultReq) : (s.setFault f).ft = s.ft ||| bitMask (f.bit.number s.cfg) := by
  unfold State.setFault; simp only; split <;> (try split) <;> rfl

@[simp] theorem State.setFault_mask (f : FaultReq) : (s.setFault f).mask = s.mask := by
  unfold State.setFault; simp only; split <;> (try split) <;> rfl

@[simp] theorem State.setFault_pi (f : FaultReq) : (s.setFault f).pi = s.pi ||| bitMask 1 := by
  unfold State.setFault; simp only; split <;> (try split) <;> rfl

@[simp] theorem State.setFault_ien (f : FaultReq) : (s.setFault f).ien = s.ien := by
  unfold State.setFault; simp only; split <;> (try split) <;> rfl

@[simp] theorem State.setFault_enblPending (f : FaultReq) : (s.setFault f).enblPending = s.enblPending := by
  unfold State.setFault; simp only; split <;> (try split) <;> rfl

@[simp] theorem State.setFault_spiHold (f : FaultReq) : (s.setFault f).spiHold = releaseHold (bitMask 1) s.spiHold := by
  unfold State.setFault; simp only; split <;> (try split) <;> rfl

@[simp] theorem State.setFault_ctl (f : FaultReq) : (s.setFault f).ctl = s.ctl := by
  unfold State.setFault; simp only; split <;> (try split) <;> rfl

@[simp] theorem State.setFault_dev (f : FaultReq) : (s.setFault f).dev = s.dev := by
  unfold State.setFault; simp only; split <;> (try split) <;> rfl

@[simp] theorem State.setFault_mem (f : FaultReq) : (s.setFault f).mem = s.mem := by
  unfold State.setFault; simp only; split <;> (try split) <;> rfl

@[simp] theorem State.setFault_rom (f : FaultReq) : (s.setFault f).rom = s.rom := by
  unfold State.setFault; simp only; split <;> (try split) <;> rfl

@[simp] theorem State.setFault_resumeIc (f : FaultReq) : (s.setFault f).resumeIc = s.resumeIc := by
  unfold State.setFault; simp only; split <;> (try split) <;> rfl

@[simp] theorem State.setFault_halted (f : FaultReq) : (s.setFault f).halted = s.halted := by
  unfold State.setFault; simp only; split <;> (try split) <;> rfl

@[simp] theorem State.setFault_schedule (f : FaultReq) : (s.setFault f).schedule = s.schedule := by
  unfold State.setFault; simp only; split <;> (try split) <;> rfl

@[simp] theorem State.setFault_dma (f : FaultReq) : (s.setFault f).dma = s.dma := by
  unfold State.setFault; simp only; split <;> (try split) <;> rfl

@[simp] theorem State.setFault_raised (f : FaultReq) : (s.setFault f).raised = s.raised := by
  unfold State.setFault; simp only; split <;> (try split) <;> rfl

@[simp] theorem State.setFault_freeCount (f : FaultReq) : (s.setFault f).freeCount = s.freeCount := by
  unfold State.setFault; simp only; split <;> (try split) <;> rfl

/-! ### `raise` -/

@[simp] theorem State.raise_cfg (f : FaultReq) : (s.raise f).cfg = s.cfg := by
  simp [State.raise]

@[simp] theorem State.raise_regs (f : FaultReq) : (s.raise f).regs = s.regs := by
  simp [State.raise]

@[simp] theorem State.raise_sw (f : FaultReq) : (s.raise f).sw = s.sw := by
  simp [State.raise]

@[simp] theorem State.raise_ft (f : FaultReq) : (s.raise f).ft = s.ft ||| bitMask (f.bit.number s.cfg) := by
  simp [State.raise]

@[simp] theorem State.raise_mask (f : FaultReq) : (s.raise f).mask = s.mask := by
  simp [State.raise]

@[simp] theorem State.raise_pi (f : FaultReq) : (s.raise f).pi = s.pi ||| bitMask 1 := by
  simp [State.raise]

@[simp] theorem State.raise_ien (f : FaultReq) : (s.raise f).ien = s.ien := by
  simp [State.raise]

@[simp] theorem State.raise_enblPending (f : FaultReq) : (s.raise f).enblPending = s.enblPending := by
  simp [State.raise]

@[simp] theorem State.raise_spiHold (f : FaultReq) : (s.raise f).spiHold = releaseHold (bitMask 1) s.spiHold := by
  simp [State.raise]

@[simp] theorem State.raise_ctl (f : FaultReq) : (s.raise f).ctl = s.ctl := by
  simp [State.raise]

@[simp] theorem State.raise_dev (f : FaultReq) : (s.raise f).dev = s.dev := by
  simp [State.raise]

@[simp] theorem State.raise_mem (f : FaultReq) : (s.raise f).mem = s.mem := by
  simp [State.raise]

@[simp] theorem State.raise_rom (f : FaultReq) : (s.raise f).rom = s.rom := by
  simp [State.raise]

@[simp] theorem State.raise_resumeIc (f : FaultReq) : (s.raise f).resumeIc = s.resumeIc := by
  simp [State.raise]

@[simp] theorem State.raise_halted (f : FaultReq) : (s.raise f).halted = s.halted := by
  simp [State.raise]

@[simp] theorem State.raise_schedule (f : FaultReq) : (s.raise f).schedule = s.schedule := by
  simp [State.raise]

@[simp] theorem State.raise_dma (f : FaultReq) : (s.raise f).dma = s.dma := by
  simp [State.raise]

@[simp] theorem State.raise_raised (f : FaultReq) : (s.raise f).raised = some f.bit := rfl

@[simp] theorem State.raise_freeCount (f : FaultReq) : (s.raise f).freeCount = s.freeCount + 1 := by
  simp [State.raise]

/-! ### `physWrite` -/

@[simp] theorem State.physWrite_cfg (pa : Nat) (w : Word) : (s.physWrite pa w).cfg = s.cfg := rfl

@[simp] theorem State.physWrite_regs (pa : Nat) (w : Word) : (s.physWrite pa w).regs = s.regs := rfl

@[simp] theorem State.physWrite_ic (pa : Nat) (w : Word) : (s.physWrite pa w).ic = s.ic := rfl

@[simp] theorem State.physWrite_sw (pa : Nat) (w : Word) : (s.physWrite pa w).sw = s.sw := rfl

@[simp] theorem State.physWrite_ft (pa : Nat) (w : Word) : (s.physWrite pa w).ft = s.ft := rfl

@[simp] theorem State.physWrite_mask (pa : Nat) (w : Word) : (s.physWrite pa w).mask = s.mask := rfl

@[simp] theorem State.physWrite_pi (pa : Nat) (w : Word) : (s.physWrite pa w).pi = s.pi := rfl

@[simp] theorem State.physWrite_ien (pa : Nat) (w : Word) : (s.physWrite pa w).ien = s.ien := rfl

@[simp] theorem State.physWrite_enblPending (pa : Nat) (w : Word) : (s.physWrite pa w).enblPending = s.enblPending := rfl

@[simp] theorem State.physWrite_spiHold (pa : Nat) (w : Word) : (s.physWrite pa w).spiHold = s.spiHold := rfl

@[simp] theorem State.physWrite_mfsr (pa : Nat) (w : Word) : (s.physWrite pa w).mfsr = s.mfsr := rfl

@[simp] theorem State.physWrite_ctl (pa : Nat) (w : Word) : (s.physWrite pa w).ctl = s.ctl := rfl

@[simp] theorem State.physWrite_dev (pa : Nat) (w : Word) : (s.physWrite pa w).dev = s.dev := rfl

@[simp] theorem State.physWrite_mem (pa : Nat) (w : Word) : (s.physWrite pa w).mem = Memory.writeWord s.mem pa w := rfl

@[simp] theorem State.physWrite_rom (pa : Nat) (w : Word) : (s.physWrite pa w).rom = s.rom := rfl

@[simp] theorem State.physWrite_resumeIc (pa : Nat) (w : Word) : (s.physWrite pa w).resumeIc = s.resumeIc := rfl

@[simp] theorem State.physWrite_halted (pa : Nat) (w : Word) : (s.physWrite pa w).halted = s.halted := rfl

@[simp] theorem State.physWrite_schedule (pa : Nat) (w : Word) : (s.physWrite pa w).schedule = s.schedule := rfl

@[simp] theorem State.physWrite_dma (pa : Nat) (w : Word) : (s.physWrite pa w).dma = s.dma := rfl

@[simp] theorem State.physWrite_raised (pa : Nat) (w : Word) : (s.physWrite pa w).raised = s.raised := rfl

@[simp] theorem State.physWrite_freeCount (pa : Nat) (w : Word) : (s.physWrite pa w).freeCount = s.freeCount := rfl

/-! ### `holdIoic` -/

@[simp] theorem State.holdIoic_cfg (n : BitVec 4) : (s.holdIoic n).cfg = s.cfg := rfl

@[simp] theorem State.holdIoic_regs (n : BitVec 4) : (s.holdIoic n).regs = s.regs := rfl

@[simp] theorem State.holdIoic_ic (n : BitVec 4) : (s.holdIoic n).ic = s.ic := rfl

@[simp] theorem State.holdIoic_sw (n : BitVec 4) : (s.holdIoic n).sw = s.sw := rfl

@[simp] theorem State.holdIoic_ft (n : BitVec 4) : (s.holdIoic n).ft = s.ft := rfl

@[simp] theorem State.holdIoic_mask (n : BitVec 4) : (s.holdIoic n).mask = s.mask := rfl

@[simp] theorem State.holdIoic_pi (n : BitVec 4) : (s.holdIoic n).pi = s.pi := rfl

@[simp] theorem State.holdIoic_ien (n : BitVec 4) : (s.holdIoic n).ien = s.ien := rfl

@[simp] theorem State.holdIoic_enblPending (n : BitVec 4) : (s.holdIoic n).enblPending = s.enblPending := rfl

@[simp] theorem State.holdIoic_spiHold (n : BitVec 4) : (s.holdIoic n).spiHold = s.spiHold := rfl

@[simp] theorem State.holdIoic_mfsr (n : BitVec 4) : (s.holdIoic n).mfsr = s.mfsr := rfl

@[simp] theorem State.holdIoic_ctl (n : BitVec 4) : (s.holdIoic n).ctl = s.ctl := rfl

@[simp] theorem State.holdIoic_mem (n : BitVec 4) : (s.holdIoic n).mem = s.mem := rfl

@[simp] theorem State.holdIoic_rom (n : BitVec 4) : (s.holdIoic n).rom = s.rom := rfl

@[simp] theorem State.holdIoic_resumeIc (n : BitVec 4) : (s.holdIoic n).resumeIc = s.resumeIc := rfl

@[simp] theorem State.holdIoic_halted (n : BitVec 4) : (s.holdIoic n).halted = s.halted := rfl

@[simp] theorem State.holdIoic_schedule (n : BitVec 4) : (s.holdIoic n).schedule = s.schedule := rfl

@[simp] theorem State.holdIoic_dma (n : BitVec 4) : (s.holdIoic n).dma = s.dma := rfl

@[simp] theorem State.holdIoic_raised (n : BitVec 4) : (s.holdIoic n).raised = s.raised := rfl

@[simp] theorem State.holdIoic_freeCount (n : BitVec 4) : (s.holdIoic n).freeCount = s.freeCount := rfl

/-! ### `finish` -/

@[simp] theorem State.finish_cfg (r : Reg) (v : Word) (cs : BitVec 4) (n : Word) : (s.finish r v cs n).cfg = s.cfg := rfl

@[simp] theorem State.finish_regs (r : Reg) (v : Word) (cs : BitVec 4) (n : Word) : (s.finish r v cs n).regs = (s.setReg r v).regs := rfl

@[simp] theorem State.finish_ic (r : Reg) (v : Word) (cs : BitVec 4) (n : Word) : (s.finish r v cs n).ic = s.ic + n := rfl

@[simp] theorem State.finish_ft (r : Reg) (v : Word) (cs : BitVec 4) (n : Word) : (s.finish r v cs n).ft = s.ft := rfl

@[simp] theorem State.finish_mask (r : Reg) (v : Word) (cs : BitVec 4) (n : Word) : (s.finish r v cs n).mask = s.mask := rfl

@[simp] theorem State.finish_pi (r : Reg) (v : Word) (cs : BitVec 4) (n : Word) : (s.finish r v cs n).pi = s.pi := rfl

@[simp] theorem State.finish_ien (r : Reg) (v : Word) (cs : BitVec 4) (n : Word) : (s.finish r v cs n).ien = s.ien := rfl

@[simp] theorem State.finish_enblPending (r : Reg) (v : Word) (cs : BitVec 4) (n : Word) : (s.finish r v cs n).enblPending = s.enblPending := rfl

@[simp] theorem State.finish_spiHold (r : Reg) (v : Word) (cs : BitVec 4) (n : Word) : (s.finish r v cs n).spiHold = s.spiHold := rfl

@[simp] theorem State.finish_mfsr (r : Reg) (v : Word) (cs : BitVec 4) (n : Word) : (s.finish r v cs n).mfsr = s.mfsr := rfl

@[simp] theorem State.finish_ctl (r : Reg) (v : Word) (cs : BitVec 4) (n : Word) : (s.finish r v cs n).ctl = s.ctl := rfl

@[simp] theorem State.finish_dev (r : Reg) (v : Word) (cs : BitVec 4) (n : Word) : (s.finish r v cs n).dev = s.dev := rfl

@[simp] theorem State.finish_mem (r : Reg) (v : Word) (cs : BitVec 4) (n : Word) : (s.finish r v cs n).mem = s.mem := rfl

@[simp] theorem State.finish_rom (r : Reg) (v : Word) (cs : BitVec 4) (n : Word) : (s.finish r v cs n).rom = s.rom := rfl

@[simp] theorem State.finish_resumeIc (r : Reg) (v : Word) (cs : BitVec 4) (n : Word) : (s.finish r v cs n).resumeIc = s.resumeIc := rfl

@[simp] theorem State.finish_halted (r : Reg) (v : Word) (cs : BitVec 4) (n : Word) : (s.finish r v cs n).halted = s.halted := rfl

@[simp] theorem State.finish_schedule (r : Reg) (v : Word) (cs : BitVec 4) (n : Word) : (s.finish r v cs n).schedule = s.schedule := rfl

@[simp] theorem State.finish_dma (r : Reg) (v : Word) (cs : BitVec 4) (n : Word) : (s.finish r v cs n).dma = s.dma := rfl

@[simp] theorem State.finish_raised (r : Reg) (v : Word) (cs : BitVec 4) (n : Word) : (s.finish r v cs n).raised = s.raised := rfl

@[simp] theorem State.finish_freeCount (r : Reg) (v : Word) (cs : BitVec 4) (n : Word) : (s.finish r v cs n).freeCount = s.freeCount := rfl

/-! ### `finish2` -/

@[simp] theorem State.finish2_cfg (r : Reg) (v : Long) (cs : BitVec 4) (n : Word) : (s.finish2 r v cs n).cfg = s.cfg := rfl

@[simp] theorem State.finish2_regs (r : Reg) (v : Long) (cs : BitVec 4) (n : Word) : (s.finish2 r v cs n).regs = (s.setPair r v).regs := rfl

@[simp] theorem State.finish2_ic (r : Reg) (v : Long) (cs : BitVec 4) (n : Word) : (s.finish2 r v cs n).ic = s.ic + n := rfl

@[simp] theorem State.finish2_ft (r : Reg) (v : Long) (cs : BitVec 4) (n : Word) : (s.finish2 r v cs n).ft = s.ft := rfl

@[simp] theorem State.finish2_mask (r : Reg) (v : Long) (cs : BitVec 4) (n : Word) : (s.finish2 r v cs n).mask = s.mask := rfl

@[simp] theorem State.finish2_pi (r : Reg) (v : Long) (cs : BitVec 4) (n : Word) : (s.finish2 r v cs n).pi = s.pi := rfl

@[simp] theorem State.finish2_ien (r : Reg) (v : Long) (cs : BitVec 4) (n : Word) : (s.finish2 r v cs n).ien = s.ien := rfl

@[simp] theorem State.finish2_enblPending (r : Reg) (v : Long) (cs : BitVec 4) (n : Word) : (s.finish2 r v cs n).enblPending = s.enblPending := rfl

@[simp] theorem State.finish2_spiHold (r : Reg) (v : Long) (cs : BitVec 4) (n : Word) : (s.finish2 r v cs n).spiHold = s.spiHold := rfl

@[simp] theorem State.finish2_mfsr (r : Reg) (v : Long) (cs : BitVec 4) (n : Word) : (s.finish2 r v cs n).mfsr = s.mfsr := rfl

@[simp] theorem State.finish2_ctl (r : Reg) (v : Long) (cs : BitVec 4) (n : Word) : (s.finish2 r v cs n).ctl = s.ctl := rfl

@[simp] theorem State.finish2_dev (r : Reg) (v : Long) (cs : BitVec 4) (n : Word) : (s.finish2 r v cs n).dev = s.dev := rfl

@[simp] theorem State.finish2_mem (r : Reg) (v : Long) (cs : BitVec 4) (n : Word) : (s.finish2 r v cs n).mem = s.mem := rfl

@[simp] theorem State.finish2_rom (r : Reg) (v : Long) (cs : BitVec 4) (n : Word) : (s.finish2 r v cs n).rom = s.rom := rfl

@[simp] theorem State.finish2_resumeIc (r : Reg) (v : Long) (cs : BitVec 4) (n : Word) : (s.finish2 r v cs n).resumeIc = s.resumeIc := rfl

@[simp] theorem State.finish2_halted (r : Reg) (v : Long) (cs : BitVec 4) (n : Word) : (s.finish2 r v cs n).halted = s.halted := rfl

@[simp] theorem State.finish2_schedule (r : Reg) (v : Long) (cs : BitVec 4) (n : Word) : (s.finish2 r v cs n).schedule = s.schedule := rfl

@[simp] theorem State.finish2_dma (r : Reg) (v : Long) (cs : BitVec 4) (n : Word) : (s.finish2 r v cs n).dma = s.dma := rfl

@[simp] theorem State.finish2_raised (r : Reg) (v : Long) (cs : BitVec 4) (n : Word) : (s.finish2 r v cs n).raised = s.raised := rfl

@[simp] theorem State.finish2_freeCount (r : Reg) (v : Long) (cs : BitVec 4) (n : Word) : (s.finish2 r v cs n).freeCount = s.freeCount := rfl

/-! ### `finish3` -/

@[simp] theorem State.finish3_cfg (r : Reg) (v : Ext) (cs : BitVec 4) (n : Word) : (s.finish3 r v cs n).cfg = s.cfg := rfl

@[simp] theorem State.finish3_regs (r : Reg) (v : Ext) (cs : BitVec 4) (n : Word) : (s.finish3 r v cs n).regs = (s.setTriple r v).regs := rfl

@[simp] theorem State.finish3_ic (r : Reg) (v : Ext) (cs : BitVec 4) (n : Word) : (s.finish3 r v cs n).ic = s.ic + n := rfl

@[simp] theorem State.finish3_ft (r : Reg) (v : Ext) (cs : BitVec 4) (n : Word) : (s.finish3 r v cs n).ft = s.ft := rfl

@[simp] theorem State.finish3_mask (r : Reg) (v : Ext) (cs : BitVec 4) (n : Word) : (s.finish3 r v cs n).mask = s.mask := rfl

@[simp] theorem State.finish3_pi (r : Reg) (v : Ext) (cs : BitVec 4) (n : Word) : (s.finish3 r v cs n).pi = s.pi := rfl

@[simp] theorem State.finish3_ien (r : Reg) (v : Ext) (cs : BitVec 4) (n : Word) : (s.finish3 r v cs n).ien = s.ien := rfl

@[simp] theorem State.finish3_enblPending (r : Reg) (v : Ext) (cs : BitVec 4) (n : Word) : (s.finish3 r v cs n).enblPending = s.enblPending := rfl

@[simp] theorem State.finish3_spiHold (r : Reg) (v : Ext) (cs : BitVec 4) (n : Word) : (s.finish3 r v cs n).spiHold = s.spiHold := rfl

@[simp] theorem State.finish3_mfsr (r : Reg) (v : Ext) (cs : BitVec 4) (n : Word) : (s.finish3 r v cs n).mfsr = s.mfsr := rfl

@[simp] theorem State.finish3_ctl (r : Reg) (v : Ext) (cs : BitVec 4) (n : Word) : (s.finish3 r v cs n).ctl = s.ctl := rfl

@[simp] theorem State.finish3_dev (r : Reg) (v : Ext) (cs : BitVec 4) (n : Word) : (s.finish3 r v cs n).dev = s.dev := rfl

@[simp] theorem State.finish3_mem (r : Reg) (v : Ext) (cs : BitVec 4) (n : Word) : (s.finish3 r v cs n).mem = s.mem := rfl

@[simp] theorem State.finish3_rom (r : Reg) (v : Ext) (cs : BitVec 4) (n : Word) : (s.finish3 r v cs n).rom = s.rom := rfl

@[simp] theorem State.finish3_resumeIc (r : Reg) (v : Ext) (cs : BitVec 4) (n : Word) : (s.finish3 r v cs n).resumeIc = s.resumeIc := rfl

@[simp] theorem State.finish3_halted (r : Reg) (v : Ext) (cs : BitVec 4) (n : Word) : (s.finish3 r v cs n).halted = s.halted := rfl

@[simp] theorem State.finish3_schedule (r : Reg) (v : Ext) (cs : BitVec 4) (n : Word) : (s.finish3 r v cs n).schedule = s.schedule := rfl

@[simp] theorem State.finish3_dma (r : Reg) (v : Ext) (cs : BitVec 4) (n : Word) : (s.finish3 r v cs n).dma = s.dma := rfl

@[simp] theorem State.finish3_raised (r : Reg) (v : Ext) (cs : BitVec 4) (n : Word) : (s.finish3 r v cs n).raised = s.raised := rfl

@[simp] theorem State.finish3_freeCount (r : Reg) (v : Ext) (cs : BitVec 4) (n : Word) : (s.finish3 r v cs n).freeCount = s.freeCount := rfl

/-! ### `finishCs` -/

@[simp] theorem State.finishCs_cfg (cs : BitVec 4) (n : Word) : (s.finishCs cs n).cfg = s.cfg := rfl

@[simp] theorem State.finishCs_regs (cs : BitVec 4) (n : Word) : (s.finishCs cs n).regs = s.regs := rfl

@[simp] theorem State.finishCs_ic (cs : BitVec 4) (n : Word) : (s.finishCs cs n).ic = s.ic + n := rfl

@[simp] theorem State.finishCs_ft (cs : BitVec 4) (n : Word) : (s.finishCs cs n).ft = s.ft := rfl

@[simp] theorem State.finishCs_mask (cs : BitVec 4) (n : Word) : (s.finishCs cs n).mask = s.mask := rfl

@[simp] theorem State.finishCs_pi (cs : BitVec 4) (n : Word) : (s.finishCs cs n).pi = s.pi := rfl

@[simp] theorem State.finishCs_ien (cs : BitVec 4) (n : Word) : (s.finishCs cs n).ien = s.ien := rfl

@[simp] theorem State.finishCs_enblPending (cs : BitVec 4) (n : Word) : (s.finishCs cs n).enblPending = s.enblPending := rfl

@[simp] theorem State.finishCs_spiHold (cs : BitVec 4) (n : Word) : (s.finishCs cs n).spiHold = s.spiHold := rfl

@[simp] theorem State.finishCs_mfsr (cs : BitVec 4) (n : Word) : (s.finishCs cs n).mfsr = s.mfsr := rfl

@[simp] theorem State.finishCs_ctl (cs : BitVec 4) (n : Word) : (s.finishCs cs n).ctl = s.ctl := rfl

@[simp] theorem State.finishCs_dev (cs : BitVec 4) (n : Word) : (s.finishCs cs n).dev = s.dev := rfl

@[simp] theorem State.finishCs_mem (cs : BitVec 4) (n : Word) : (s.finishCs cs n).mem = s.mem := rfl

@[simp] theorem State.finishCs_rom (cs : BitVec 4) (n : Word) : (s.finishCs cs n).rom = s.rom := rfl

@[simp] theorem State.finishCs_resumeIc (cs : BitVec 4) (n : Word) : (s.finishCs cs n).resumeIc = s.resumeIc := rfl

@[simp] theorem State.finishCs_halted (cs : BitVec 4) (n : Word) : (s.finishCs cs n).halted = s.halted := rfl

@[simp] theorem State.finishCs_schedule (cs : BitVec 4) (n : Word) : (s.finishCs cs n).schedule = s.schedule := rfl

@[simp] theorem State.finishCs_dma (cs : BitVec 4) (n : Word) : (s.finishCs cs n).dma = s.dma := rfl

@[simp] theorem State.finishCs_raised (cs : BitVec 4) (n : Word) : (s.finishCs cs n).raised = s.raised := rfl

@[simp] theorem State.finishCs_freeCount (cs : BitVec 4) (n : Word) : (s.finishCs cs n).freeCount = s.freeCount := rfl

end Sys2Proof.Machine
end

