-- ==== Sys2Proof/Laws/Memory.lean ====
section
/-! SUPPORT. The laws of memory: a read after a write, the canonical form and the bound that every write keeps. -/

namespace Sys2Proof.Machine

theorem Memory.wfAbove_mono : ∀ (m : Memory) {lo lo' : Nat}, lo' ≤ lo → m.wfAbove lo = true → m.wfAbove lo' = true
  | [], _, _, _, _ => rfl
  | (_, _) :: _, _, _, h, hm => by
    simp only [Memory.wfAbove, Bool.and_eq_true, decide_eq_true_eq] at hm ⊢
    exact ⟨⟨le_trans h hm.1.1, hm.1.2⟩, hm.2⟩

/-- Below its first cell a canonical memory reads as the fill. -/
theorem Memory.get_below : ∀ (m : Memory) {lo a : Nat}, m.wfAbove lo = true → a < lo → m.get a = Memory.fill
  | [], _, _, _, _ => rfl
  | (k, b) :: rest, lo, a, hm, ha => by
    simp only [Memory.wfAbove, Bool.and_eq_true, decide_eq_true_eq] at hm
    have hk : k ≠ a := by omega
    simp only [Memory.get, hk, if_false]
    exact Memory.get_below rest hm.2 (by omega)

/-- A byte reads back as it was put. -/
theorem Memory.get_put_same : ∀ (m : Memory) {lo : Nat} (a : Nat) (b : Byte), m.wfAbove lo = true →
    (m.put a b).get a = b
  | [], _, a, b, _ => by
    by_cases h : b = Memory.fill <;> simp [Memory.put, Memory.get, h]
  | (k, c) :: rest, lo, a, b, hm => by
    simp only [Memory.wfAbove, Bool.and_eq_true, decide_eq_true_eq] at hm
    simp only [Memory.put]
    split
    · rename_i hlt
      split
      · rename_i hb
        have hk : k ≠ a := by omega
        simp only [Memory.get, hk, if_false, hb]
        exact Memory.get_below rest hm.2 (by omega)
      · simp [Memory.get]
    · split
      · rename_i hak
        subst hak
        split
        · rename_i hb
          rw [hb]
          exact Memory.get_below rest hm.2 (by omega)
        · simp [Memory.get]
      · rename_i hne
        have hk : k ≠ a := fun h => hne h.symm
        simp only [Memory.get, hk, if_false]
        exact Memory.get_put_same rest a b hm.2

/-- Every other byte reads as before. -/
theorem Memory.get_put_other : ∀ (m : Memory) (a : Nat) (b : Byte) {x : Nat}, x ≠ a → (m.put a b).get x = m.get x
  | [], a, b, x, h => by
    by_cases hb : b = Memory.fill
    · simp [Memory.put, hb]
    · simp [Memory.put, Memory.get, hb, Ne.symm h]
  | (k, c) :: rest, a, b, x, h => by
    simp only [Memory.put]
    split
    · split
      · rfl
      · simp [Memory.get, Ne.symm h]
    · split
      · rename_i hak
        subst hak
        split <;> simp [Memory.get, Ne.symm h]
      · simp only [Memory.get]
        split
        · rfl
        · exact Memory.get_put_other rest a b h

theorem Memory.wfAbove_put : ∀ (m : Memory) {lo : Nat} (a : Nat) (b : Byte), m.wfAbove lo = true → lo ≤ a →
    (m.put a b).wfAbove lo = true
  | [], lo, a, b, _, ha => by
    by_cases h : b = Memory.fill <;> simp [Memory.put, Memory.wfAbove, h, ha]
  | (k, c) :: rest, lo, a, b, hm, ha => by
    have hm' := hm
    simp only [Memory.wfAbove, Bool.and_eq_true, decide_eq_true_eq] at hm
    simp only [Memory.put]
    split
    · split
      · exact hm'
      · rename_i hlt hb
        simp only [Memory.wfAbove, Bool.and_eq_true, decide_eq_true_eq]
        exact ⟨⟨ha, hb⟩, ⟨by omega, hm.1.2⟩, hm.2⟩
    · split
      · split
        · exact Memory.wfAbove_mono rest (by omega) hm.2
        · rename_i hak hb
          subst hak
          simp only [Memory.wfAbove, Bool.and_eq_true, decide_eq_true_eq]
          exact ⟨⟨ha, hb⟩, hm.2⟩
      · simp only [Memory.wfAbove, Bool.and_eq_true, decide_eq_true_eq]
        exact ⟨hm.1, Memory.wfAbove_put rest a b hm.2 (by omega)⟩

/-- A write of one byte keeps the canonical form. -/
theorem Memory.wf_put (m : Memory) (a : Nat) (b : Byte) (h : m.wf = true) : (m.put a b).wf = true :=
  Memory.wfAbove_put m a b h (Nat.zero_le a)

theorem Memory.below_put : ∀ (m : Memory) (n a : Nat) (b : Byte), m.below n = true → a < n → (m.put a b).below n = true
  | [], n, a, b, _, ha => by
    by_cases h : b = Memory.fill <;> simp [Memory.put, Memory.below, h, ha]
  | (k, c) :: rest, n, a, b, hm, ha => by
    have hm' := hm
    simp only [Memory.below, List.all_cons, Bool.and_eq_true, decide_eq_true_eq] at hm
    simp only [Memory.put]
    split
    · split
      · exact hm'
      · simp [Memory.below, ha, hm.1]
        simpa using hm.2
    · split
      · split
        · simpa [Memory.below] using hm.2
        · simp only [Memory.below, List.all_cons, Bool.and_eq_true, decide_eq_true_eq]
          exact ⟨ha, hm.2⟩
      · simp only [Memory.below, List.all_cons, Bool.and_eq_true, decide_eq_true_eq]
        exact ⟨hm.1, Memory.below_put rest n a b hm.2 ha⟩

/-- A word reads back as it was written. -/
theorem Memory.readWord_writeWord_same (m : Memory) (pa : Nat) (w : Word) (h : m.wf = true) :
    (m.writeWord pa w).readWord pa = w := by
  unfold Memory.readWord Memory.writeWord
  rw [Memory.get_put_same (lo := 0) _ _ _ (Memory.wf_put m _ _ h), Memory.get_put_other _ _ _ (by omega),
    Memory.get_put_same (lo := 0) m _ _ h]
  unfold Word.upper Word.lower
  apply BitVec.eq_of_getLsbD_eq
  intro i hi
  simp only [BitVec.getLsbD_append, BitVec.getLsbD_extractLsb']
  split
  · simp_all
  · have : i - 8 < 8 := by omega
    simp only [this, decide_true, Bool.true_and]
    congr 1
    omega

/-- Every other word reads as before. -/
theorem Memory.readWord_writeWord_other (m : Memory) {pa q : Nat} (w : Word) (h : q ≠ pa) :
    (m.writeWord pa w).readWord q = m.readWord q := by
  unfold Memory.readWord Memory.writeWord
  rw [Memory.get_put_other _ _ _ (by omega), Memory.get_put_other _ _ _ (by omega),
    Memory.get_put_other _ _ _ (by omega), Memory.get_put_other _ _ _ (by omega)]

/-- A write of one word keeps the canonical form and stays in the physical space. -/
theorem memoryOk_writeWord {m : Memory} {pa : Nat} {w : Word} (h : memoryOk m) (hpa : pa < 1048576) :
    memoryOk (m.writeWord pa w) := by
  obtain ⟨hw, hb⟩ := h
  exact ⟨Memory.wf_put _ _ _ (Memory.wf_put _ _ _ hw),
    Memory.below_put _ _ _ _ (Memory.below_put _ _ _ _ hb (by omega)) (by omega)⟩

/-- The memory of the reset state is canonical. -/
theorem State.reset_mem_wf : State.reset.mem.wf = true := rfl

end Sys2Proof.Machine
end

