-- ==== Sys2Proof/Laws/Ops.lean ====
section
/-! SUPPORT. What the shared operations can do: faults they yield, addresses they reach, states they leave. `Local` says
what an instruction that is not about control state may change. -/

namespace Sys2Proof.Machine

/-! ### Registers -/

@[simp] theorem State.reg_setReg_same (s : State) (r : Reg) (v : Word) : (s.setReg r v).reg r = v := by
  simp [State.reg, State.setReg]

theorem State.reg_setReg_other (s : State) {r q : Reg} (v : Word) (h : q ≠ r) : (s.setReg r v).reg q = s.reg q := by
  have : r.toNat ≠ q.toNat := fun e => h (BitVec.eq_of_toNat_eq e.symm)
  simp [State.reg, State.setReg, this]

@[simp] theorem Long.hi_ofWords (a b : Word) : Long.hi (Long.ofWords a b) = a := by
  simp only [Long.hi, Long.ofWords]
  apply BitVec.eq_of_getLsbD_eq
  intro i hi
  simp only [BitVec.getLsbD_extractLsb', BitVec.getLsbD_append]
  simp [hi]

@[simp] theorem Long.lo_ofWords (a b : Word) : Long.lo (Long.ofWords a b) = b := by
  simp only [Long.lo, Long.ofWords]
  apply BitVec.eq_of_getLsbD_eq
  intro i hi
  simp only [BitVec.getLsbD_extractLsb', BitVec.getLsbD_append]
  simp [hi]

/-! ### Status word -/

@[simp] theorem State.setCs_low (s : State) (v : BitVec 4) :
    (s.setCs v).sw.extractLsb' 0 12 = s.sw.extractLsb' 0 12 := by
  simp only [State.setCs_sw]
  apply BitVec.eq_of_getLsbD_eq
  intro i hi
  simp only [BitVec.getLsbD_extractLsb', BitVec.getLsbD_append]
  simp [hi]

@[simp] theorem State.setCs_cs (s : State) (v : BitVec 4) : (s.setCs v).cs = v := by
  simp only [State.cs, State.setCs_sw]
  apply BitVec.eq_of_getLsbD_eq
  intro i hi
  simp only [BitVec.getLsbD_extractLsb', BitVec.getLsbD_append]
  simp [hi]

/-- PS and AS are among the low twelve bits of SW. -/
theorem ps_of_low {a b : State} (h : a.sw.extractLsb' 0 12 = b.sw.extractLsb' 0 12) : a.ps = b.ps := by
  have e : ∀ s : State, s.ps = (s.sw.extractLsb' 0 12).extractLsb' 4 4 := by
    intro s
    simp only [State.ps]
    apply BitVec.eq_of_getLsbD_eq
    intro i hi
    simp only [BitVec.getLsbD_extractLsb']
    have : 4 + i < 12 := by omega
    simp [hi, this]
  rw [e a, e b, h]

theorem as_of_low {a b : State} (h : a.sw.extractLsb' 0 12 = b.sw.extractLsb' 0 12) : a.as = b.as := by
  have e : ∀ s : State, s.as = (s.sw.extractLsb' 0 12).extractLsb' 0 4 := by
    intro s
    simp only [State.as, asOf]
    apply BitVec.eq_of_getLsbD_eq
    intro i hi
    simp only [BitVec.getLsbD_extractLsb', Nat.zero_add]
    have : i < 12 := by omega
    simp [hi, this]
  rw [e a, e b, h]

/-! ### Faults -/

/-- The designators of a fault have the reserved bits of MFSR zero. -/
def FaultReq.ok (f : FaultReq) : Prop := ∀ w, f.designators = some w → w &&& 0x0FE0#16 = 0#16

/-- The fault of a stop has the reserved bits of MFSR zero. -/
def Stop.ok : Stop → Prop
  | .fault f => f.ok
  | .refuse _ => True

theorem designatorsOf_reserved (la : Word) (i : Bool) (as : BitVec 4) : designatorsOf la i as &&& 0x0FE0#16 = 0#16 := by
  unfold designatorsOf
  apply BitVec.eq_of_getLsbD_eq
  intro k hk
  simp only [BitVec.getLsbD_and, BitVec.getLsbD_append]
  interval_cases k <;> simp

theorem ok_none (b : FaultBit) : FaultReq.ok ⟨b, none⟩ := fun _ h => nomatch h

theorem ok_designators (b : FaultBit) (la : Word) (i : Bool) (as : BitVec 4) :
    FaultReq.ok ⟨b, some (designatorsOf la i as)⟩ := by
  intro w h
  cases h
  exact designatorsOf_reserved la i as

theorem bitMask_reserved (b : FaultBit) {c : Config} (h : c.ftIllegalInstr ≠ 12#4) :
    bitMask (b.number c) &&& 0x0008#16 = 0#16 := by
  have all : ∀ n : BitVec 4, n ≠ 12#4 → bitMask n &&& 0x0008#16 = 0#16 := by decide
  cases b
  case illegalInstruction => exact all _ h
  all_goals exact all _ (by simp only [FaultBit.number]; decide)

/-! ### Translation -/

theorem physImplemented_lt {c : Config} {pa : Nat} (h : physImplemented c pa = true) : pa < 1048576 := by
  have : physSize c ≤ 1048576 := by
    unfold physSize
    split <;> omega
  simp only [physImplemented, Bool.and_eq_true] at h
  have := of_decide_eq_true h.1
  omega

theorem State.romOverlay_lt {s : State} {pa : Nat} (h : s.romOverlay pa = true) : pa < 65536 := by
  unfold State.romOverlay at h
  split at h
  · cases h
  · rename_i n _
    simp only [Bool.and_eq_true, decide_eq_true_eq] at h
    have := n.isLt
    omega

/-- The physical step answers its own address, which exists, or a fault. -/
theorem State.checkPhysical_ok {s : State} {a : Agent} {k : RefKind} {d : Word} {pa q : Nat}
    (h : s.checkPhysical a k d pa = .ok q) : q = pa ∧ pa < 1048576 := by
  unfold State.checkPhysical at h
  split at h
  · cases h
  · split at h
    · rename_i hr
      cases h
      have := State.romOverlay_lt hr.2
      exact ⟨rfl, by omega⟩
    · split at h
      · cases h
      · rename_i himp
        split at h
        · cases h
        · cases h
          exact ⟨rfl, physImplemented_lt (by simpa using himp)⟩

theorem State.checkPhysical_error {s : State} {a : Agent} {k : RefKind} {d : Word} {pa : Nat} {f : FaultReq}
    (h : s.checkPhysical a k d pa = .error f) : ∃ b, f = ⟨b, some d⟩ := by
  unfold State.checkPhysical at h
  split at h
  · cases h; exact ⟨_, rfl⟩
  · split at h
    · cases h
    · split at h
      · cases h; exact ⟨_, rfl⟩
      · split at h
        · cases h; exact ⟨_, rfl⟩
        · cases h

theorem State.translate_ok {s : State} {a : Agent} {k : RefKind} {g : BitVec 4} {key : Option (BitVec 4)} {la : Word}
    {pa : Nat} (h : s.translate a k g key la = .ok pa) : pa < 1048576 := by
  unfold State.translate at h
  split at h
  · cases h
  · have := State.checkPhysical_ok h
    omega

/-- Every fault of a translation carries the designators of the reference. -/
theorem State.translate_error {s : State} {a : Agent} {k : RefKind} {g : BitVec 4} {key : Option (BitVec 4)} {la : Word}
    {f : FaultReq} (h : s.translate a k g key la = .error f) : ∃ b, f = ⟨b, some (designatorsOf la (k == .fetch) g)⟩ := by
  unfold State.translate at h
  split at h
  · rename_i hm
    cases h
    unfold State.mapPage at hm
    split at hm
    · cases hm
    · dsimp only at hm
      split at hm
      · split at hm
        · cases hm; exact ⟨_, rfl⟩
        · cases hm
      · split at hm
        · cases hm; exact ⟨_, rfl⟩
        · cases hm
  · exact State.checkPhysical_error h

theorem State.translate_error_ok {s : State} {a : Agent} {k : RefKind} {g : BitVec 4} {key : Option (BitVec 4)}
    {la : Word} {f : FaultReq} (h : s.translate a k g key la = .error f) : f.ok := by
  obtain ⟨b, rfl⟩ := State.translate_error h
  exact ok_designators b la _ g

/-- A translation does not look at memory, registers or free values. -/
theorem State.translate_congr {s t : State} (hc : t.cfg = s.cfg) (hl : t.ctl = s.ctl) (a : Agent) (k : RefKind)
    (g : BitVec 4) (key : Option (BitVec 4)) (la : Word) : t.translate a k g key la = s.translate a k g key la := by
  unfold State.translate State.mapPage State.checkPhysical State.pageReg State.blockProtected State.romOverlay
  rw [hc, hl]

/-! ### DMA between word references -/

/-- `t` differs from `s` at most as DMA can make it: memory, FT, PI (and the bits held back), MFSR, the free value counter
and the DMA the model carries. -/
def DmaOnly (s t : State) : Prop :=
  t = { s with
    mem := t.mem, ft := t.ft, pi := t.pi, spiHold := t.spiHold, mfsr := t.mfsr, freeCount := t.freeCount, dma := t.dma }

theorem DmaOnly.refl (s : State) : DmaOnly s s := rfl

theorem DmaOnly.trans {a b c : State} (h : DmaOnly a b) (g : DmaOnly b c) : DmaOnly a c := by
  unfold DmaOnly at *
  rw [g, h]

theorem DmaOnly.setFault (s : State) (f : FaultReq) (n : Nat) : DmaOnly s ((s.setFault f).spend n) := by
  unfold DmaOnly State.setFault State.request State.requestMask State.spend
  cases f.designators with
  | none => rfl
  | some w => dsimp only; split <;> rfl

theorem DmaOnly.dmaReference (s : State) (r : DmaRef) : DmaOnly s (s.dmaReference r) := by
  unfold State.dmaReference
  split
  · split
    · split
      · exact DmaOnly.setFault _ _ _
      · rfl
    · split
      · exact DmaOnly.setFault _ _ _
      · rfl
  · rfl

theorem DmaOnly.dmaReferences : ∀ (rs : List DmaRef) (s : State), DmaOnly s (s.dmaReferences rs)
  | [], s => DmaOnly.refl s
  | r :: rest, s => (DmaOnly.dmaReference s r).trans (DmaOnly.dmaReferences rest _)

/-- What DMA before a word reference can change. -/
theorem DmaOnly.turn (s : State) : DmaOnly s s.turn := by
  unfold State.turn
  split
  · rfl
  · exact DmaOnly.trans (b := { s with dma := _ }) rfl (DmaOnly.dmaReferences _ _)

theorem DmaOnly.turns : ∀ (n : Nat) (s : State), DmaOnly s (s.turns n)
  | 0, s => DmaOnly.refl s
  | n + 1, s => (DmaOnly.turn s).trans (DmaOnly.turns n s.turn)

@[simp] theorem State.turns_zero (s : State) : s.turns 0 = s := rfl

@[simp] theorem State.turns_succ (s : State) (n : Nat) : s.turns (n + 1) = s.turn.turns n := rfl

theorem State.turn_of_no_slots {s : State} (h : s.dma.slots = []) : s.turn = s := by
  unfold State.turn
  rw [h]

@[simp] theorem State.turn_cfg (s : State) : s.turn.cfg = s.cfg := by
  have h := DmaOnly.turn s
  unfold DmaOnly at h
  rw [h]

@[simp] theorem State.turn_regs (s : State) : s.turn.regs = s.regs := by
  have h := DmaOnly.turn s
  unfold DmaOnly at h
  rw [h]

@[simp] theorem State.turn_ic (s : State) : s.turn.ic = s.ic := by
  have h := DmaOnly.turn s
  unfold DmaOnly at h
  rw [h]

@[simp] theorem State.turn_sw (s : State) : s.turn.sw = s.sw := by
  have h := DmaOnly.turn s
  unfold DmaOnly at h
  rw [h]

@[simp] theorem State.turn_mask (s : State) : s.turn.mask = s.mask := by
  have h := DmaOnly.turn s
  unfold DmaOnly at h
  rw [h]

@[simp] theorem State.turn_ien (s : State) : s.turn.ien = s.ien := by
  have h := DmaOnly.turn s
  unfold DmaOnly at h
  rw [h]

@[simp] theorem State.turn_enblPending (s : State) : s.turn.enblPending = s.enblPending := by
  have h := DmaOnly.turn s
  unfold DmaOnly at h
  rw [h]

@[simp] theorem State.turn_ctl (s : State) : s.turn.ctl = s.ctl := by
  have h := DmaOnly.turn s
  unfold DmaOnly at h
  rw [h]

@[simp] theorem State.turn_dev (s : State) : s.turn.dev = s.dev := by
  have h := DmaOnly.turn s
  unfold DmaOnly at h
  rw [h]

@[simp] theorem State.turn_rom (s : State) : s.turn.rom = s.rom := by
  have h := DmaOnly.turn s
  unfold DmaOnly at h
  rw [h]

@[simp] theorem State.turn_halted (s : State) : s.turn.halted = s.halted := by
  have h := DmaOnly.turn s
  unfold DmaOnly at h
  rw [h]

@[simp] theorem State.turn_schedule (s : State) : s.turn.schedule = s.schedule := by
  have h := DmaOnly.turn s
  unfold DmaOnly at h
  rw [h]

@[simp] theorem State.turn_raised (s : State) : s.turn.raised = s.raised := by
  have h := DmaOnly.turn s
  unfold DmaOnly at h
  rw [h]

@[simp] theorem State.turn_reg (s : State) (r : Reg) : s.turn.reg r = s.reg r := by
  simp [State.reg]

@[simp] theorem State.turn_cs (s : State) : s.turn.cs = s.cs := by
  simp [State.cs]

@[simp] theorem State.turn_ps (s : State) : s.turn.ps = s.ps := by
  simp [State.ps]

@[simp] theorem State.turn_as (s : State) : s.turn.as = s.as := by
  simp [State.as]

@[simp] theorem State.turn_idx (s : State) (r : Reg) : s.turn.idx r = s.idx r := by
  simp [State.idx]

@[simp] theorem State.turn_daLong (s : State) (a : Word) (r : Reg) : s.turn.daLong a r = s.daLong a r := by
  simp [State.daLong]

@[simp] theorem State.turn_daBase (s : State) (b : Reg) (d : BitVec 8) : s.turn.daBase b d = s.daBase b d := by
  simp [State.daBase]

@[simp] theorem State.turn_daIndexed (s : State) (b r : Reg) : s.turn.daIndexed b r = s.daIndexed b r := by
  simp [State.daIndexed]

@[simp] theorem State.turn_pair (s : State) (r : Reg) : s.turn.pair r = s.pair r := by
  simp [State.pair]

@[simp] theorem State.turn_triple (s : State) (r : Reg) : s.turn.triple r = s.triple r := by
  simp [State.triple]

/-- Translation is not touched by DMA. -/
@[simp] theorem State.turn_translate (s : State) (a : Agent) (k : RefKind) (g : BitVec 4) (key : Option (BitVec 4))
    (la : Word) : s.turn.translate a k g key la = s.translate a k g key la :=
  State.translate_congr (by simp) (by simp) a k g key la

@[simp] theorem State.turn_firstFault (g : BitVec 4) (key : Option (BitVec 4)) :
    ∀ (ws : List (Word × Word)) (s : State), s.turn.firstFault g key ws = s.firstFault g key ws
  | [], _ => rfl
  | (la, w) :: rest, s => by simp [State.firstFault, State.turn_firstFault g key rest s]

/-- DMA keeps the canonical form of memory. -/
theorem State.turn_wf {s : State} (h : s.mem.wf = true) : s.turn.mem.wf = true := by
  have one : ∀ (s : State) (r : DmaRef), s.mem.wf = true → (s.dmaReference r).mem.wf = true := by
    intro s r hs
    unfold State.dmaReference
    split
    · split
      · split
        · simpa using hs
        · exact hs
      · split
        · simpa using hs
        · exact Memory.wf_put _ _ _ (Memory.wf_put _ _ _ hs)
    · exact hs
  have many : ∀ (rs : List DmaRef) (s : State), s.mem.wf = true → (s.dmaReferences rs).mem.wf = true := by
    intro rs
    induction rs with
    | nil => intro s hs; exact hs
    | cons r rest ih => intro s hs; exact ih _ (one s r hs)
  unfold State.turn
  split
  · exact h
  · exact many _ _ h

/-- DMA looks at no register but those of its own enable and the protection, and a change of the others passes through. -/
theorem State.turn_with (s : State) (regs : Vector Word 16) (ic sw mask : Word) (ien enbl halted : Bool)
    (schedule : List (List Event)) (raised : Option FaultBit) :
    ({ s with
      regs := regs, ic := ic, sw := sw, mask := mask, ien := ien, enblPending := enbl, halted := halted
      schedule := schedule, raised := raised } : State).turn =
      { s.turn with
        regs := regs, ic := ic, sw := sw, mask := mask, ien := ien, enblPending := enbl, halted := halted
        schedule := schedule, raised := raised } := by
  let g : State → State := fun s => { s with
    regs := regs, ic := ic, sw := sw, mask := mask, ien := ien, enblPending := enbl, halted := halted
    schedule := schedule, raised := raised }
  have fault : ∀ (s : State) (f : FaultReq), ((g s).setFault f).spend 2 = g ((s.setFault f).spend 2) := by
    intro s f
    unfold State.setFault State.request State.requestMask State.spend
    cases f.designators with
    | none => rfl
    | some w => by_cases h : s.cfg.hasMfsr <;> simp [g, h]
  have trans : ∀ (s : State) (k : RefKind) (a : DmaAddress), (g s).dmaTranslate k a = s.dmaTranslate k a := by
    intro s k a
    cases a <;> rfl
  have one : ∀ (s : State) (r : DmaRef), (g s).dmaReference r = g (s.dmaReference r) := by
    intro s r
    unfold State.dmaReference
    rw [trans, trans]
    show (if s.cfg.hasDma && s.dev.dmaEn && dmaGroupOk s.cfg r.address then _ else g s) = _
    split
    · cases r.action with
      | read =>
        dsimp only
        cases s.dmaTranslate .read r.address with
        | error f => exact fault s f
        | ok pa => rfl
      | write w =>
        dsimp only
        cases s.dmaTranslate .write r.address with
        | error f => exact fault s f
        | ok pa => rfl
    · rfl
  have many : ∀ (rs : List DmaRef) (s : State), (g s).dmaReferences rs = g (s.dmaReferences rs) := by
    intro rs
    induction rs with
    | nil => intro s; rfl
    | cons r rest ih =>
      intro s
      show ((g s).dmaReference r).dmaReferences rest = _
      rw [one, ih]
      rfl
  show (g s).turn = g s.turn
  unfold State.turn
  show (match s.dma.slots with
    | [] => g s
    | refs :: rest => (g { s with dma := { s.dma with slots := rest } }).dmaReferences refs) = _
  cases s.dma.slots with
  | nil => rfl
  | cons refs rest => exact many refs { s with dma := { s.dma with slots := rest } }

theorem State.turn_setReg (s : State) (r : Reg) (v : Word) : (s.setReg r v).turn = s.turn.setReg r v := by
  have h := State.turn_with s (s.regs.set r.toNat v r.isLt) s.ic s.sw s.mask s.ien s.enblPending s.halted s.schedule
    s.raised
  have e := DmaOnly.turn s
  unfold DmaOnly at e
  show State.turn { s with regs := _ } = _
  rw [h, State.setReg, e]

/-! ### References -/

theorem State.cpuRead_error {s : State} {k : RefKind} {la : Word} {e : Stop} (h : s.cpuRead k la = .error e) : e.ok := by
  unfold State.cpuRead at h
  dsimp only at h
  split at h
  · split at h
    · rename_i hf
      cases h
      exact State.translate_error_ok hf
    · cases h
  · cases h; trivial

theorem State.read_error {s : State} {la : Word} {e : Stop} (h : s.read la = .error e) : e.ok := State.cpuRead_error h

theorem State.fetch_error {s : State} {la : Word} {e : Stop} (h : s.fetch la = .error e) : e.ok := State.cpuRead_error h

theorem State.vectorRead_error {s : State} {la : Word} {f : FaultReq} (h : s.vectorRead la = .error f) : f.ok := by
  unfold State.vectorRead at h
  dsimp only at h
  split at h
  · rename_i hf; cases h; exact State.translate_error_ok hf
  · cases h

/-- A read that is answered goes on with the word, in the state of its turn. -/
theorem State.readThen_ok {s : State} {la v : Word} {k : Word → State → Out} (h : s.read la = .ok v) :
    s.readThen la k = k v s.turn := by
  simp [State.readThen, h]

/-- A read that faults ends the instruction. -/
theorem State.readThen_fault {s : State} {la : Word} {k : Word → State → Out} {f : FaultReq}
    (h : s.read la = .error (.fault f)) : s.readThen la k = .next (s.turn.raise f) := by
  simp [State.readThen, h, State.stop]

/-! ### What an instruction that is not about control state may change -/

/-- `t` differs from `s` only in general registers, IC, CS, FT, PI, MFSR, memory and the free value counter (and the
bits an SPI holds back), the DMA the model carries and the latest CPU fault, FT and MFSR keeping their reserved bits
and memory its form. -/
structure Local (s t : State) : Prop where
  cfg : t.cfg = s.cfg
  low : t.sw.extractLsb' 0 12 = s.sw.extractLsb' 0 12
  mask : t.mask = s.mask
  ien : t.ien = s.ien
  enblPending : t.enblPending = s.enblPending
  ctl : t.ctl = s.ctl
  dev : t.dev = s.dev
  rom : t.rom = s.rom
  halted : t.halted = s.halted
  schedule : t.schedule = s.schedule
  ft : s.cfg.ftIllegalInstr ≠ 12#4 → s.ft &&& 0x0008#16 = 0#16 → t.ft &&& 0x0008#16 = 0#16
  mfsr : s.mfsr &&& 0x0FE0#16 = 0#16 → t.mfsr &&& 0x0FE0#16 = 0#16
  mem : memoryOk s.mem → memoryOk t.mem

theorem Local.refl (s : State) : Local s s :=
  ⟨rfl, rfl, rfl, rfl, rfl, rfl, rfl, rfl, rfl, rfl, fun _ => id, id, id⟩

theorem Local.trans {a b c : State} (h : Local a b) (g : Local b c) : Local a c where
  cfg := g.cfg.trans h.cfg
  low := g.low.trans h.low
  mask := g.mask.trans h.mask
  ien := g.ien.trans h.ien
  enblPending := g.enblPending.trans h.enblPending
  ctl := g.ctl.trans h.ctl
  dev := g.dev.trans h.dev
  rom := g.rom.trans h.rom
  halted := g.halted.trans h.halted
  schedule := g.schedule.trans h.schedule
  ft := fun c x => g.ft (h.cfg ▸ c) (h.ft c x)
  mfsr := fun x => g.mfsr (h.mfsr x)
  mem := fun x => g.mem (h.mem x)

/-- Local effects keep the invariant. -/
theorem Local.inv {s t : State} (h : Local s t) (i : s.Inv) : t.Inv := by
  obtain ⟨i1, i2, i0, i3, i4, i5, i6⟩ := i
  refine ⟨h.mem i1, h.rom ▸ i2, h.cfg ▸ i0, h.ft i0 i3, h.mfsr i4, ?_, ?_⟩
  · rw [h.cfg, h.ctl]; exact i5
  · rw [h.cfg, h.ctl]; exact i6

theorem Local.setReg (s : State) (r : Reg) (v : Word) : Local s (s.setReg r v) :=
  ⟨rfl, rfl, rfl, rfl, rfl, rfl, rfl, rfl, rfl, rfl, fun _ => id, id, id⟩

theorem Local.setPair (s : State) (r : Reg) (v : Long) : Local s (s.setPair r v) :=
  ⟨rfl, rfl, rfl, rfl, rfl, rfl, rfl, rfl, rfl, rfl, fun _ => id, id, id⟩

theorem Local.setTriple (s : State) (r : Reg) (v : Ext) : Local s (s.setTriple r v) :=
  ⟨rfl, rfl, rfl, rfl, rfl, rfl, rfl, rfl, rfl, rfl, fun _ => id, id, id⟩

theorem Local.setIc (s : State) (v : Word) : Local s (s.setIc v) :=
  ⟨rfl, rfl, rfl, rfl, rfl, rfl, rfl, rfl, rfl, rfl, fun _ => id, id, id⟩

theorem Local.advance (s : State) (v : Word) : Local s (s.advance v) :=
  ⟨rfl, rfl, rfl, rfl, rfl, rfl, rfl, rfl, rfl, rfl, fun _ => id, id, id⟩

theorem Local.spend (s : State) (n : Nat) : Local s (s.spend n) :=
  ⟨rfl, rfl, rfl, rfl, rfl, rfl, rfl, rfl, rfl, rfl, fun _ => id, id, id⟩

theorem Local.setCs (s : State) (v : BitVec 4) : Local s (s.setCs v) :=
  ⟨rfl, State.setCs_low s v, rfl, rfl, rfl, rfl, rfl, rfl, rfl, rfl, fun _ => id, id, id⟩

theorem Local.requestMask (s : State) (m : Word) : Local s (s.requestMask m) :=
  ⟨rfl, rfl, rfl, rfl, rfl, rfl, rfl, rfl, rfl, rfl, fun _ => id, id, id⟩

theorem Local.request (s : State) (n : BitVec 4) : Local s (s.request n) := Local.requestMask s _

theorem Local.requestIf (s : State) (b : Bool) (n : BitVec 4) : Local s (s.requestIf b n) := by
  cases b
  · exact Local.refl s
  · exact Local.request s n

theorem Local.physWrite (s : State) (pa : Nat) (w : Word) (h : pa < 1048576) : Local s (s.physWrite pa w) :=
  ⟨rfl, rfl, rfl, rfl, rfl, rfl, rfl, rfl, rfl, rfl, fun _ => id, id, fun x => memoryOk_writeWord x h⟩

theorem Local.setFault (s : State) (f : FaultReq) (h : f.ok) : Local s (s.setFault f) where
  cfg := by simp
  low := by simp
  mask := by simp
  ien := by simp
  enblPending := by simp
  ctl := by simp
  dev := by simp
  rom := by simp
  halted := by simp
  schedule := by simp
  ft := by
    intro c x
    rw [State.setFault_ft]
    have e : (s.ft ||| bitMask (f.bit.number s.cfg)) &&& 0x0008#16 =
        (s.ft &&& 0x0008#16) ||| (bitMask (f.bit.number s.cfg) &&& 0x0008#16) := by
      apply BitVec.eq_of_getLsbD_eq
      intro i hi
      simp [Bool.and_or_distrib_right]
    rw [e, x, bitMask_reserved f.bit c]
    rfl
  mfsr := by
    intro x
    unfold State.setFault
    simp only
    split
    · rename_i w hw
      split
      · exact h w hw
      · exact x
    · exact x
  mem := by simp

theorem Local.raise (s : State) (f : FaultReq) (h : f.ok) : Local s (s.raise f) :=
  (Local.setFault s f h).trans (c := s.raise f)
    ⟨rfl, rfl, rfl, rfl, rfl, rfl, rfl, rfl, rfl, rfl, fun _ => id, id, id⟩

theorem Local.dmaReference (s : State) (r : DmaRef) : Local s (s.dmaReference r) := by
  have ok : ∀ k a f, s.dmaTranslate k a = .error f → f.ok := by
    intro k a f h
    cases a with
    | physical pa =>
      obtain ⟨b, rfl⟩ := State.checkPhysical_error h
      exact ok_designators b _ _ _
    | logical la as key => exact State.translate_error_ok h
  have lt : ∀ k a pa, s.dmaTranslate k a = .ok pa → pa < 1048576 := by
    intro k a pa h
    cases a with
    | physical q =>
      have := State.checkPhysical_ok h
      omega
    | logical la as key => exact State.translate_ok h
  unfold State.dmaReference
  split
  · split
    · split
      · rename_i f h
        exact (Local.setFault s f (ok _ _ _ h)).trans (Local.spend _ _)
      · exact ⟨rfl, rfl, rfl, rfl, rfl, rfl, rfl, rfl, rfl, rfl, fun _ => id, id, id⟩
    · split
      · rename_i f h
        exact (Local.setFault s f (ok _ _ _ h)).trans (Local.spend _ _)
      · rename_i pa h
        exact Local.physWrite s pa _ (lt _ _ _ h)
  · exact Local.refl s

theorem Local.dmaReferences : ∀ (rs : List DmaRef) (s : State), Local s (s.dmaReferences rs)
  | [], s => Local.refl s
  | r :: rest, s => (Local.dmaReference s r).trans (Local.dmaReferences rest _)

theorem Local.turn (s : State) : Local s s.turn := by
  unfold State.turn
  split
  · exact Local.refl s
  · rename_i refs rest _
    exact Local.trans (b := { s with dma := { s.dma with slots := rest } })
      ⟨rfl, rfl, rfl, rfl, rfl, rfl, rfl, rfl, rfl, rfl, fun _ => id, id, id⟩ (Local.dmaReferences refs _)

theorem Local.raiseIllegalIo (s : State) (n : Word) : Local s (s.raiseIllegalIo n) :=
  (Local.setFault s _ (ok_none _)).trans (Local.advance _ _)

theorem Local.finish (s : State) (r : Reg) (v : Word) (cs : BitVec 4) (n : Word) : Local s (s.finish r v cs n) :=
  ((Local.setReg s r v).trans (Local.setCs _ cs)).trans (Local.advance _ n)

theorem Local.finish2 (s : State) (r : Reg) (v : Long) (cs : BitVec 4) (n : Word) : Local s (s.finish2 r v cs n) :=
  ((Local.setPair s r v).trans (Local.setCs _ cs)).trans (Local.advance _ n)

theorem Local.finish3 (s : State) (r : Reg) (v : Ext) (cs : BitVec 4) (n : Word) : Local s (s.finish3 r v cs n) :=
  ((Local.setTriple s r v).trans (Local.setCs _ cs)).trans (Local.advance _ n)

theorem Local.finishCs (s : State) (cs : BitVec 4) (n : Word) : Local s (s.finishCs cs n) :=
  (Local.setCs s cs).trans (Local.advance _ n)

/-! ### Stores -/

theorem State.firstFault_ok {s : State} {g : BitVec 4} {key : Option (BitVec 4)} :
    ∀ {ws : List (Word × Word)} {f : FaultReq} {n : Nat}, s.firstFault g key ws = some (f, n) → f.ok
  | [], _, _, h => nomatch h
  | (la, w) :: rest, f, n, h => by
    unfold State.firstFault at h
    split at h
    · rename_i hf
      cases h
      exact State.translate_error_ok hf
    · split at h
      · cases h
      · rename_i hr
        cases h
        exact State.firstFault_ok hr

theorem Local.storePicked (g : BitVec 4) (key : Option (BitVec 4)) (pick : Nat → Bool) :
    ∀ (ws : List (Word × Word)) (s : State) (n : Nat), Local s (s.storePicked g key pick n ws)
  | [], s, _ => Local.refl s
  | (la, w) :: rest, s, n => by
    unfold State.storePicked
    refine (Local.turn s).trans ?_
    split
    · exact Local.storePicked g key pick rest _ (n + 1)
    · rename_i pa hpa
      split
      · exact (Local.physWrite _ pa w (State.translate_ok hpa)).trans (Local.storePicked g key pick rest _ (n + 1))
      · exact Local.storePicked g key pick rest _ (n + 1)

/-- Where every word's reference is answered, storing leaves each at its physical address, in turn. -/
theorem State.storePicked_storedInTurn {g : BitVec 4} {key : Option (BitVec 4)} :
    ∀ {ws : List (Word × Word)} {pas : List Nat} {s : State} {n : Nat}, s.mem.wf = true →
      ws.map (fun w => s.translate .cpu .write g key w.1) = pas.map Except.ok →
        StoredInTurn s (pas.zip (ws.map Prod.snd)) (s.storePicked g key (fun _ => true) n ws)
  | [], pas, s, n, _, h => by
    cases pas with
    | nil => rfl
    | cons => cases h
  | (la, w) :: rest, pas, s, n, hw, h => by
    cases pas with
    | nil => cases h
    | cons pa pas =>
      simp only [List.map_cons, List.cons.injEq] at h
      have hwf : (s.turn.physWrite pa w).mem.wf = true := Memory.wf_put _ _ _ (Memory.wf_put _ _ _ (State.turn_wf hw))
      refine ⟨s.turn.physWrite pa w, ⟨_, rfl, hwf, ?_⟩, ?_⟩
      · intro a
        have wt := State.turn_wf hw
        unfold Memory.writeWord
        by_cases h1 : a = 2 * pa + 1
        · subst h1
          rw [Memory.get_put_same (lo := 0) _ _ _ (Memory.wf_put _ _ _ wt), if_neg (by omega), if_pos rfl]
        · rw [Memory.get_put_other _ _ _ h1]
          by_cases h0 : a = 2 * pa
          · subst h0
            rw [Memory.get_put_same (lo := 0) _ _ _ wt, if_pos rfl]
          · rw [Memory.get_put_other _ _ _ h0, if_neg h0, if_neg h1]
      · have key' : ∀ la, (s.turn.physWrite pa w).translate .cpu .write g key la = s.translate .cpu .write g key la :=
          fun la => State.translate_congr (by simp) (by simp) _ _ _ _ _
        unfold State.storePicked
        rw [State.turn_translate, h.1]
        exact State.storePicked_storedInTurn hwf (by simpa [key'] using h.2)

theorem State.firstFault_none {g : BitVec 4} {key : Option (BitVec 4)} :
    ∀ {ws : List (Word × Word)} {pas : List Nat} {s : State},
      ws.map (fun w => s.translate .cpu .write g key w.1) = pas.map Except.ok → s.firstFault g key ws = none
  | [], _, _, _ => rfl
  | (la, w) :: rest, pas, s, h => by
    cases pas with
    | nil => cases h
    | cons pa pas =>
      simp only [List.map_cons, List.cons.injEq] at h
      simp [State.firstFault, h.1, State.firstFault_none h.2]

/-- What a store does once all its words can be stored. -/
theorem State.store_ok {s : State} {ws : List (Word × Word)} {pas : List Nat} (k : State → Out)
    (hw : s.mem.wf = true) (hg : groupImplemented s.cfg s.as = true)
    (h : ws.map (fun w => s.translate .cpu .write s.as (some s.ps) w.1) = pas.map Except.ok) :
    ∃ t, StoredInTurn s (pas.zip (ws.map Prod.snd)) t ∧ s.store ws k = k t := by
  refine ⟨_, State.storePicked_storedInTurn (n := 0) hw h, ?_⟩
  simp [State.store, State.storeWords, hg, State.firstFault_none h]

/-- Storing in turn changes memory, and what DMA changes, only. -/
theorem StoredInTurn.dmaOnly : ∀ {ws : List (Nat × Word)} {s t : State}, StoredInTurn s ws t → DmaOnly s t
  | [], s, t, h => by
    cases h
    exact DmaOnly.refl s
  | (pa, w) :: rest, s, t, h => by
    obtain ⟨u, ⟨m, rfl, _⟩, hu⟩ := h
    exact ((DmaOnly.turn s).trans (c := { s.turn with mem := m }) rfl).trans hu.dmaOnly

/-- What storing words can do: only memory, the free value counter and what DMA changes. -/
theorem State.storeWords_done {s t : State} {g : BitVec 4} {key : Option (BitVec 4)} {ws : List (Word × Word)}
    (h : s.storeWords g key ws = .done t) :
    s.firstFault g key ws = none ∧ t = s.storePicked g key (fun _ => true) 0 ws ∧ Local s t := by
  unfold State.storeWords at h
  split at h
  · rename_i hf
    cases h
    exact ⟨hf, rfl, Local.storePicked _ _ _ _ _ _⟩
  · cases h

theorem State.storeWords_faulted {s t : State} {g : BitVec 4} {key : Option (BitVec 4)} {ws : List (Word × Word)}
    {f : FaultReq} (h : s.storeWords g key ws = .faulted f t) : f.ok ∧ Local s t := by
  unfold State.storeWords at h
  split at h
  · cases h
  · rename_i hf
    cases h
    exact ⟨State.firstFault_ok hf, (Local.storePicked _ _ _ _ _ _).trans (Local.spend _ _)⟩

/-! ### Input/output interrupt codes -/

/-- The requesting channel of highest priority is one of them, and none has a higher one; there is none where none
requests. -/
theorem highestChannel_spec : ∀ l : List (BitVec 7),
    (highestChannel l = none ↔ l = []) ∧
      ∀ c, highestChannel l = some c → c ∈ l ∧ ∀ d ∈ l, Config.channelRank d ≤ Config.channelRank c
  | [] => by simp [highestChannel]
  | a :: l => by
    have ih := highestChannel_spec l
    unfold highestChannel
    cases h : highestChannel l with
    | none =>
      cases ih.1.1 h
      simp
    | some d =>
      obtain ⟨hd, hr⟩ := ih.2 d h
      dsimp only
      split
      · rename_i hlt
        simp only [Option.some.injEq, reduceCtorEq, forall_eq', List.mem_cons, forall_eq_or_imp]
        exact ⟨by simp, .inr hd, hlt.le, hr⟩
      · rename_i hge
        simp only [Option.some.injEq, reduceCtorEq, forall_eq', List.mem_cons, forall_eq_or_imp]
        exact ⟨by simp, .inl trivial, le_rfl, fun x hx => (hr x hx).trans (not_lt.1 hge)⟩

/-- What an IOIC that is not held shows. -/
theorem shownChannel_spec (l : List (BitVec 7)) (old : BitVec 7) :
    (l = [] → shownChannel l old = old) ∧ (l ≠ [] → shownChannel l old ∈ l) ∧
      ∀ d ∈ l, Config.channelRank d ≤ Config.channelRank (shownChannel l old) := by
  unfold shownChannel
  cases h : highestChannel l with
  | none =>
    cases (highestChannel_spec l).1.1 h
    simp
  | some c =>
    obtain ⟨hc, hr⟩ := (highestChannel_spec l).2 c h
    exact ⟨fun e => by simp [e] at hc, fun _ => hc, hr⟩

/-! ### Outcomes -/

/-- The next state, if there is one, satisfies `P`. -/
def Holds (P : State → Prop) : Out → Prop
  | .next t => P t
  | .fault _ => True
  | .refused _ => True

theorem Holds.stop {s : State} {e : Stop} (h : e.ok) : Holds (Local s) (s.stop e) := by
  cases e with
  | fault f => exact Local.raise s f h
  | refuse r => trivial

theorem Holds.mono {P Q : State → Prop} (h : ∀ t, P t → Q t) : ∀ {o : Out}, Holds P o → Holds Q o
  | .next t, ho => h t ho
  | .fault _, _ => trivial
  | .refused _, _ => trivial

theorem Holds.readThen {s s' : State} {la : Word} {k : Word → State → Out} (hs : Local s s')
    (hk : ∀ v t, Local s t → Holds (Local s) (k v t)) : Holds (Local s) (s'.readThen la k) := by
  unfold State.readThen
  have ht := hs.trans (Local.turn s')
  cases h : s'.read la with
  | error e => exact Holds.mono (fun _ g => ht.trans g) (Holds.stop (State.read_error h))
  | ok v => exact hk v _ ht

theorem Holds.readThen2 {s s' : State} {la : Word} {k : Long → State → Out} (hs : Local s s')
    (hk : ∀ v t, Local s t → Holds (Local s) (k v t)) : Holds (Local s) (s'.readThen2 la k) :=
  Holds.readThen hs fun _ _ h1 => Holds.readThen h1 fun _ t h2 => hk _ t h2

theorem Holds.readThen3 {s s' : State} {la : Word} {k : Ext → State → Out} (hs : Local s s')
    (hk : ∀ v t, Local s t → Holds (Local s) (k v t)) : Holds (Local s) (s'.readThen3 la k) :=
  Holds.readThen hs fun _ _ h1 => Holds.readThen h1 fun _ _ h2 => Holds.readThen h2 fun _ t h3 => hk _ t h3

theorem Holds.indirectThen {s s' : State} {addr : Word} {rx : Reg} {k : Word → State → Out} (hs : Local s s')
    (hk : ∀ v t, Local s t → Holds (Local s) (k v t)) : Holds (Local s) (s'.indirectThen addr rx k) :=
  Holds.readThen (k := fun da s => s.readThen da k) hs fun _ _ h1 => Holds.readThen h1 hk

theorem Holds.indirectThen2 {s s' : State} {addr : Word} {rx : Reg} {k : Long → State → Out} (hs : Local s s')
    (hk : ∀ v t, Local s t → Holds (Local s) (k v t)) : Holds (Local s) (s'.indirectThen2 addr rx k) :=
  Holds.readThen (k := fun da s => s.readThen2 da k) hs fun _ _ h1 => Holds.readThen2 h1 hk

theorem Holds.store {s s' : State} {ws : List (Word × Word)} {k : State → Out} (hs : Local s s')
    (hk : ∀ t, Local s t → Holds (Local s) (k t)) : Holds (Local s) (s'.store ws k) := by
  unfold State.store
  split
  · split
    · rename_i h
      exact hk _ (hs.trans (State.storeWords_done h).2.2)
    · rename_i h
      obtain ⟨hf, hl⟩ := State.storeWords_faulted h
      exact (hs.trans hl).trans (Local.raise _ _ hf)
  · trivial

end Sys2Proof.Machine
end

