-- ==== Sys2Proof/Laws/Boundary.lean ====
section
/-! SUPPORT. What the recognition of interrupts at a boundary does: nothing where none is due, else one sequence after the
other, the events of the outside after each. -/

namespace Sys2Proof.Machine

@[simp] theorem State.runEvents_nil {s : State} (h : s.schedule = []) : s.runEvents = s := by
  simp [State.runEvents, h]

/-- A vector reference that is answered goes on with its word, in the state DMA leaves. -/
theorem State.vectorThen_done {s t : State} {la : Word} {k : Word → State → Stored} (h : s.vectorThen la k = .done t) :
    ∃ v, s.vectorRead la = .ok v ∧ k v s.turn = .done t := by
  unfold State.vectorThen at h
  split at h
  · cases h
  · exact ⟨_, by assumption, h⟩

/-- What a completed sequence leaves of the control state: the enable latches cleared, its PI bit and no schedule
touched. -/
theorem State.enterInterrupt_done {s t : State} {n e : BitVec 4} {ic : Word} (h : s.enterInterrupt n e ic = .done t) :
    t.ien = false ∧ t.enblPending = false ∧ t.schedule = s.schedule ∧ t.cfg = s.cfg ∧ t.halted = s.halted := by
  unfold State.enterInterrupt State.readVector at h
  obtain ⟨_, -, h⟩ := State.vectorThen_done h
  obtain ⟨_, -, h⟩ := State.vectorThen_done h
  obtain ⟨_, -, h⟩ := State.vectorThen_done h
  obtain ⟨_, -, h⟩ := State.vectorThen_done h
  obtain ⟨_, -, h⟩ := State.vectorThen_done h
  dsimp only at h
  split at h
  · split at h
    · cases h
    · rename_i u hu
      cases h
      have l := (State.storeWords_done hu).2.2
      unfold State.writeSw
      split <;> exact ⟨rfl, rfl, l.schedule.trans (by simp [State.holdIoic]), l.cfg.trans (by simp [State.holdIoic]),
        l.halted.trans (by simp [State.holdIoic])⟩
  · cases h

/-- No interrupt is due: recognition changes nothing. -/
theorem State.recognize_none {s : State} (h : s.nextInterrupt = none) : ∀ fuel, State.recognize fuel s = s
  | 0 => rfl
  | fuel + 1 => by simp [State.recognize, h]

/-- One interrupt is due: its sequence, the events after it, and the evaluation again. -/
theorem State.recognize_done {s t : State} {n : BitVec 4} (fuel : Nat) (h : s.nextInterrupt = some n)
    (ht : s.enterInterrupt n 0 s.ic = .done t) : State.recognize (fuel + 1) s = State.recognize fuel t.runEvents := by
  rw [State.recognize, h]
  dsimp only
  rw [ht]

/-- The state of which recognition is made at a boundary with nothing from outside: the enabling that was pending is in
effect unless the instruction cancelled it (60_exceptions.md R822). -/
theorem State.boundary_quiet {s : State} (was : Bool) (hs : s.schedule = [])
    (h : s.halted = true ∨ (s.endEnable was).nextInterrupt = none) :
    s.boundary was = { s.endEnable was with spiHold := (s.endEnable was).spiHold.tail, resumeIc := none } := by
  have hh : (s.endEnable was).halted = s.halted := by unfold State.endEnable; split <;> rfl
  unfold State.boundary
  dsimp only
  rw [State.runEvents_nil hs]
  rcases h with h | h
  · rw [if_pos (hh.trans h)]
  · have hi : (s.endEnable was).interruptPoint = s.endEnable was := by unfold State.interruptPoint; rw [h]
    rw [hi, State.recognize_none h, ite_self]

/-- A boundary with nothing from outside at which one interrupt is taken and no other after it. -/
theorem State.boundary_takes {s t : State} {n : BitVec 4} (was : Bool) (hs : s.schedule = []) (hh : s.halted = false)
    (h : (s.endEnable was).nextInterrupt = some n)
    (ht : (s.endEnable was).interruptPoint.enterInterrupt n 0 (s.endEnable was).interruptPoint.ic = .done t)
    (h' : t.nextInterrupt = none) : s.boundary was = { t with spiHold := t.spiHold.tail, resumeIc := none } := by
  have hk : (s.endEnable was).halted = s.halted ∧ (s.endEnable was).schedule = s.schedule := by
    unfold State.endEnable; split <;> exact ⟨rfl, rfl⟩
  have hi : (s.endEnable was).interruptPoint.nextInterrupt = some n ∧
      (s.endEnable was).interruptPoint.schedule = [] := by
    unfold State.interruptPoint
    rw [h]
    exact ⟨h, hk.2.trans hs⟩
  have ts : t.runEvents = t := State.runEvents_nil ((State.enterInterrupt_done ht).2.2.1.trans hi.2)
  unfold State.boundary
  dsimp only
  rw [State.runEvents_nil hs, if_neg (by simp [hk.1, hh]), hk.2, hs,
    show 16 + ([] : List (List Event)).length = 15 + 1 from rfl, State.recognize_done _ hi.1 ht, ts,
    State.recognize_none h']

end Sys2Proof.Machine
end

