-- ==== Sys2Proof/Laws/Encoding.lean ====
section
/-! SUPPORT. What masking does to the words the encoder builds. -/

namespace Sys2Proof

theorem rr_and_ff00 (op : BitVec 8) (f1 f2 : BitVec 4) :
    rr op f1 f2 &&& 0xFF00#16 = (op ++ 0#8 : BitVec (8 + 8)) := by
  apply BitVec.eq_of_getLsbD_eq
  unfold rr
  intro i hi
  simp only [BitVec.getLsbD_and, BitVec.getLsbD_append]
  interval_cases i <;> simp

theorem rr_and_fff0 (op : BitVec 8) (f1 f2 : BitVec 4) :
    rr op f1 f2 &&& 0xFFF0#16 = (op ++ f1 ++ 0#4 : BitVec (8 + 4 + 4)) := by
  apply BitVec.eq_of_getLsbD_eq
  unfold rr
  intro i hi
  simp only [BitVec.getLsbD_and, BitVec.getLsbD_append]
  interval_cases i <;> simp

theorem rr_and_ff0f (op : BitVec 8) (f1 f2 : BitVec 4) :
    rr op f1 f2 &&& 0xFF0F#16 = (op ++ 0#4 ++ f2 : BitVec (8 + 4 + 4)) := by
  apply BitVec.eq_of_getLsbD_eq
  unfold rr
  intro i hi
  simp only [BitVec.getLsbD_and, BitVec.getLsbD_append]
  interval_cases i <;> simp

theorem special_and_ff00 (op d : BitVec 8) :
    special op d &&& 0xFF00#16 = (op ++ 0#8 : BitVec (8 + 8)) := by
  apply BitVec.eq_of_getLsbD_eq
  unfold special
  intro i hi
  simp only [BitVec.getLsbD_and, BitVec.getLsbD_append]
  interval_cases i <;> simp

theorem based_and_fc00 (op6 : BitVec 6) (br : Reg) (d : BitVec 8) :
    based op6 br d &&& 0xFC00#16 = (op6 ++ 0#10 : BitVec (6 + 10)) := by
  apply BitVec.eq_of_getLsbD_eq
  unfold based
  intro i hi
  simp only [BitVec.getLsbD_and, BitVec.getLsbD_append]
  interval_cases i <;> simp

theorem based_and_fcf0 (op6 : BitVec 6) (br : Reg) (x rx : BitVec 4) :
    based op6 br (x ++ rx) &&& 0xFCF0#16 = (op6 ++ 0#2 ++ x ++ 0#4 : BitVec (6 + 2 + 4 + 4)) := by
  apply BitVec.eq_of_getLsbD_eq
  unfold based
  intro i hi
  simp only [BitVec.getLsbD_and, BitVec.getLsbD_append]
  interval_cases i <;> simp

end Sys2Proof
end

