-- ==== Sys2Proof/Laws/PerInstr.lean ====
section
/-! SUPPORT. The family FirstWord: the first word the encoder gives an instruction has the fixed bits of its row of
spec/opcode_table.json, and the encoding has as many words as its format (30_encoding.md R161 to R167). -/

namespace Sys2Proof.Laws

/-- The mask, the fixed bits and the number of words of an instruction's row. -/
def tableRow : Instr → Word × Word × Nat
  | .xio _ _ _ => (0xFF00#16, 0x4800#16, 2)
  | .vio _ _ _ => (0xFF00#16, 0x4900#16, 2)
  | .sbr _ _ => (0xFF00#16, 0x5100#16, 1)
  | .sb _ _ _ => (0xFF00#16, 0x5000#16, 2)
  | .sbi _ _ _ => (0xFF00#16, 0x5200#16, 2)
  | .rbr _ _ => (0xFF00#16, 0x5400#16, 1)
  | .rb _ _ _ => (0xFF00#16, 0x5300#16, 2)
  | .rbi _ _ _ => (0xFF00#16, 0x5500#16, 2)
  | .tbr _ _ => (0xFF00#16, 0x5700#16, 1)
  | .tb _ _ _ => (0xFF00#16, 0x5600#16, 2)
  | .tbi _ _ _ => (0xFF00#16, 0x5800#16, 2)
  | .tsb _ _ _ => (0xFF00#16, 0x5900#16, 2)
  | .svbr _ _ => (0xFF00#16, 0x5A00#16, 1)
  | .rvbr _ _ => (0xFF00#16, 0x5C00#16, 1)
  | .tvbr _ _ => (0xFF00#16, 0x5E00#16, 1)
  | .sll _ _ => (0xFF00#16, 0x6000#16, 1)
  | .srl _ _ => (0xFF00#16, 0x6100#16, 1)
  | .sra _ _ => (0xFF00#16, 0x6200#16, 1)
  | .slc _ _ => (0xFF00#16, 0x6300#16, 1)
  | .dsll _ _ => (0xFF00#16, 0x6500#16, 1)
  | .dsrl _ _ => (0xFF00#16, 0x6600#16, 1)
  | .dsra _ _ => (0xFF00#16, 0x6700#16, 1)
  | .dslc _ _ => (0xFF00#16, 0x6800#16, 1)
  | .slr _ _ => (0xFF00#16, 0x6A00#16, 1)
  | .sar _ _ => (0xFF00#16, 0x6B00#16, 1)
  | .scr _ _ => (0xFF00#16, 0x6C00#16, 1)
  | .dslr _ _ => (0xFF00#16, 0x6D00#16, 1)
  | .dsar _ _ => (0xFF00#16, 0x6E00#16, 1)
  | .dscr _ _ => (0xFF00#16, 0x6F00#16, 1)
  | .jc _ _ _ => (0xFF00#16, 0x7000#16, 2)
  | .jci _ _ _ => (0xFF00#16, 0x7100#16, 2)
  | .js _ _ _ => (0xFF00#16, 0x7200#16, 2)
  | .soj _ _ _ => (0xFF00#16, 0x7300#16, 2)
  | .br _ => (0xFF00#16, 0x7400#16, 1)
  | .bez _ => (0xFF00#16, 0x7500#16, 1)
  | .blt _ => (0xFF00#16, 0x7600#16, 1)
  | .ble _ => (0xFF00#16, 0x7800#16, 1)
  | .bgt _ => (0xFF00#16, 0x7900#16, 1)
  | .bnz _ => (0xFF00#16, 0x7A00#16, 1)
  | .bge _ => (0xFF00#16, 0x7B00#16, 1)
  | .lst _ _ => (0xFFF0#16, 0x7D00#16, 2)
  | .lsti _ _ => (0xFFF0#16, 0x7C00#16, 2)
  | .bex _ => (0xFFF0#16, 0x7700#16, 1)
  | .sjs _ _ _ => (0xFF00#16, 0x7E00#16, 2)
  | .urs _ => (0xFF0F#16, 0x7F00#16, 1)
  | .l _ _ _ => (0xFF00#16, 0x8000#16, 2)
  | .lr _ _ => (0xFF00#16, 0x8100#16, 1)
  | .lb _ _ => (0xFC00#16, 0x0000#16, 1)
  | .lbx _ _ => (0xFCF0#16, 0x4000#16, 1)
  | .lisp _ _ => (0xFF00#16, 0x8200#16, 1)
  | .lisn _ _ => (0xFF00#16, 0x8300#16, 1)
  | .li _ _ _ => (0xFF00#16, 0x8400#16, 2)
  | .lim _ _ _ => (0xFF00#16, 0x8500#16, 2)
  | .dl _ _ _ => (0xFF00#16, 0x8600#16, 2)
  | .dlr _ _ => (0xFF00#16, 0x8700#16, 1)
  | .dlb _ _ => (0xFC00#16, 0x0400#16, 1)
  | .dlbx _ _ => (0xFCF0#16, 0x4010#16, 1)
  | .dli _ _ _ => (0xFF00#16, 0x8800#16, 2)
  | .lm _ _ _ => (0xFF00#16, 0x8900#16, 2)
  | .efl _ _ _ => (0xFF00#16, 0x8A00#16, 2)
  | .lub _ _ _ => (0xFF00#16, 0x8B00#16, 2)
  | .llb _ _ _ => (0xFF00#16, 0x8C00#16, 2)
  | .lubi _ _ _ => (0xFF00#16, 0x8D00#16, 2)
  | .llbi _ _ _ => (0xFF00#16, 0x8E00#16, 2)
  | .popm _ _ => (0xFF00#16, 0x8F00#16, 1)
  | .st _ _ _ => (0xFF00#16, 0x9000#16, 2)
  | .stb _ _ => (0xFC00#16, 0x0800#16, 1)
  | .stbx _ _ => (0xFCF0#16, 0x4020#16, 1)
  | .sti _ _ _ => (0xFF00#16, 0x9400#16, 2)
  | .stc _ _ _ => (0xFF00#16, 0x9100#16, 2)
  | .stci _ _ _ => (0xFF00#16, 0x9200#16, 2)
  | .dst _ _ _ => (0xFF00#16, 0x9600#16, 2)
  | .dstb _ _ => (0xFC00#16, 0x0C00#16, 1)
  | .dstx _ _ => (0xFCF0#16, 0x4030#16, 1)
  | .dsti _ _ _ => (0xFF00#16, 0x9800#16, 2)
  | .srm _ _ _ => (0xFF00#16, 0x9700#16, 2)
  | .mov _ _ => (0xFF00#16, 0x9300#16, 1)
  | .stm _ _ _ => (0xFF00#16, 0x9900#16, 2)
  | .efst _ _ _ => (0xFF00#16, 0x9A00#16, 2)
  | .stub _ _ _ => (0xFF00#16, 0x9B00#16, 2)
  | .stlb _ _ _ => (0xFF00#16, 0x9C00#16, 2)
  | .subi _ _ _ => (0xFF00#16, 0x9D00#16, 2)
  | .slbi _ _ _ => (0xFF00#16, 0x9E00#16, 2)
  | .pshm _ _ => (0xFF00#16, 0x9F00#16, 1)
  | .ar _ _ => (0xFF00#16, 0xA100#16, 1)
  | .ab _ _ => (0xFC00#16, 0x1000#16, 1)
  | .abx _ _ => (0xFCF0#16, 0x4040#16, 1)
  | .aisp _ _ => (0xFF00#16, 0xA200#16, 1)
  | .a _ _ _ => (0xFF00#16, 0xA000#16, 2)
  | .aim _ _ => (0xFF0F#16, 0x4A01#16, 2)
  | .incm _ _ _ => (0xFF00#16, 0xA300#16, 2)
  | .abs _ _ => (0xFF00#16, 0xA400#16, 1)
  | .dabs _ _ => (0xFF00#16, 0xA500#16, 1)
  | .dar _ _ => (0xFF00#16, 0xA700#16, 1)
  | .da _ _ _ => (0xFF00#16, 0xA600#16, 2)
  | .sr _ _ => (0xFF00#16, 0xB100#16, 1)
  | .sbb _ _ => (0xFC00#16, 0x1400#16, 1)
  | .sbbx _ _ => (0xFCF0#16, 0x4050#16, 1)
  | .sisp _ _ => (0xFF00#16, 0xB200#16, 1)
  | .s _ _ _ => (0xFF00#16, 0xB000#16, 2)
  | .sim _ _ => (0xFF0F#16, 0x4A02#16, 2)
  | .decm _ _ _ => (0xFF00#16, 0xB300#16, 2)
  | .neg _ _ => (0xFF00#16, 0xB400#16, 1)
  | .dneg _ _ => (0xFF00#16, 0xB500#16, 1)
  | .dsr _ _ => (0xFF00#16, 0xB700#16, 1)
  | .ds _ _ _ => (0xFF00#16, 0xB600#16, 2)
  | .msr _ _ => (0xFF00#16, 0xC100#16, 1)
  | .misp _ _ => (0xFF00#16, 0xC200#16, 1)
  | .misn _ _ => (0xFF00#16, 0xC300#16, 1)
  | .ms _ _ _ => (0xFF00#16, 0xC000#16, 2)
  | .msim _ _ => (0xFF0F#16, 0x4A04#16, 2)
  | .mr _ _ => (0xFF00#16, 0xC500#16, 1)
  | .mb _ _ => (0xFC00#16, 0x1800#16, 1)
  | .mbx _ _ => (0xFCF0#16, 0x4060#16, 1)
  | .m _ _ _ => (0xFF00#16, 0xC400#16, 2)
  | .mim _ _ => (0xFF0F#16, 0x4A03#16, 2)
  | .dmr _ _ => (0xFF00#16, 0xC700#16, 1)
  | .dm _ _ _ => (0xFF00#16, 0xC600#16, 2)
  | .dvr _ _ => (0xFF00#16, 0xD100#16, 1)
  | .disp _ _ => (0xFF00#16, 0xD200#16, 1)
  | .disn _ _ => (0xFF00#16, 0xD300#16, 1)
  | .dv _ _ _ => (0xFF00#16, 0xD000#16, 2)
  | .dvim _ _ => (0xFF0F#16, 0x4A06#16, 2)
  | .dr _ _ => (0xFF00#16, 0xD500#16, 1)
  | .db _ _ => (0xFC00#16, 0x1C00#16, 1)
  | .dbx _ _ => (0xFCF0#16, 0x4070#16, 1)
  | .d _ _ _ => (0xFF00#16, 0xD400#16, 2)
  | .dim _ _ => (0xFF0F#16, 0x4A05#16, 2)
  | .ddr _ _ => (0xFF00#16, 0xD700#16, 1)
  | .dd _ _ _ => (0xFF00#16, 0xD600#16, 2)
  | .far _ _ => (0xFF00#16, 0xA900#16, 1)
  | .fab _ _ => (0xFC00#16, 0x2000#16, 1)
  | .fabx _ _ => (0xFCF0#16, 0x4080#16, 1)
  | .fa _ _ _ => (0xFF00#16, 0xA800#16, 2)
  | .efar _ _ => (0xFF00#16, 0xAB00#16, 1)
  | .efa _ _ _ => (0xFF00#16, 0xAA00#16, 2)
  | .fsr _ _ => (0xFF00#16, 0xB900#16, 1)
  | .fsb _ _ => (0xFC00#16, 0x2400#16, 1)
  | .fsbx _ _ => (0xFCF0#16, 0x4090#16, 1)
  | .fs _ _ _ => (0xFF00#16, 0xB800#16, 2)
  | .efsr _ _ => (0xFF00#16, 0xBB00#16, 1)
  | .efs _ _ _ => (0xFF00#16, 0xBA00#16, 2)
  | .fabs _ _ => (0xFF00#16, 0xAC00#16, 1)
  | .fneg _ _ => (0xFF00#16, 0xBC00#16, 1)
  | .fmr _ _ => (0xFF00#16, 0xC900#16, 1)
  | .fmb _ _ => (0xFC00#16, 0x2800#16, 1)
  | .fmbx _ _ => (0xFCF0#16, 0x40A0#16, 1)
  | .fm _ _ _ => (0xFF00#16, 0xC800#16, 2)
  | .efmr _ _ => (0xFF00#16, 0xCB00#16, 1)
  | .efm _ _ _ => (0xFF00#16, 0xCA00#16, 2)
  | .fdr _ _ => (0xFF00#16, 0xD900#16, 1)
  | .fdb _ _ => (0xFC00#16, 0x2C00#16, 1)
  | .fdbx _ _ => (0xFCF0#16, 0x40B0#16, 1)
  | .fd _ _ _ => (0xFF00#16, 0xD800#16, 2)
  | .efdr _ _ => (0xFF00#16, 0xDB00#16, 1)
  | .efd _ _ _ => (0xFF00#16, 0xDA00#16, 2)
  | .fix _ _ => (0xFF00#16, 0xE800#16, 1)
  | .flt _ _ => (0xFF00#16, 0xE900#16, 1)
  | .efix _ _ => (0xFF00#16, 0xEA00#16, 1)
  | .eflt _ _ => (0xFF00#16, 0xEB00#16, 1)
  | .fcr _ _ => (0xFF00#16, 0xF900#16, 1)
  | .fcb _ _ => (0xFC00#16, 0x3C00#16, 1)
  | .fcbx _ _ => (0xFCF0#16, 0x40D0#16, 1)
  | .fc _ _ _ => (0xFF00#16, 0xF800#16, 2)
  | .efcr _ _ => (0xFF00#16, 0xFB00#16, 1)
  | .efc _ _ _ => (0xFF00#16, 0xFA00#16, 2)
  | .orr _ _ => (0xFF00#16, 0xE100#16, 1)
  | .orb _ _ => (0xFC00#16, 0x3000#16, 1)
  | .orbx _ _ => (0xFCF0#16, 0x40F0#16, 1)
  | .or _ _ _ => (0xFF00#16, 0xE000#16, 2)
  | .orim _ _ => (0xFF0F#16, 0x4A08#16, 2)
  | .andr _ _ => (0xFF00#16, 0xE300#16, 1)
  | .andb _ _ => (0xFC00#16, 0x3400#16, 1)
  | .andx _ _ => (0xFCF0#16, 0x40E0#16, 1)
  | .and _ _ _ => (0xFF00#16, 0xE200#16, 2)
  | .andm _ _ => (0xFF0F#16, 0x4A07#16, 2)
  | .xorr _ _ => (0xFF00#16, 0xE500#16, 1)
  | .xor _ _ _ => (0xFF00#16, 0xE400#16, 2)
  | .xorm _ _ => (0xFF0F#16, 0x4A09#16, 2)
  | .nr _ _ => (0xFF00#16, 0xE700#16, 1)
  | .n _ _ _ => (0xFF00#16, 0xE600#16, 2)
  | .nim _ _ => (0xFF0F#16, 0x4A0B#16, 2)
  | .xbr _ => (0xFF0F#16, 0xEC00#16, 1)
  | .xwr _ _ => (0xFF00#16, 0xED00#16, 1)
  | .cr _ _ => (0xFF00#16, 0xF100#16, 1)
  | .cb _ _ => (0xFC00#16, 0x3800#16, 1)
  | .cbx _ _ => (0xFCF0#16, 0x40C0#16, 1)
  | .cisp _ _ => (0xFF00#16, 0xF200#16, 1)
  | .cisn _ _ => (0xFF00#16, 0xF300#16, 1)
  | .c _ _ _ => (0xFF00#16, 0xF000#16, 2)
  | .cim _ _ => (0xFF0F#16, 0x4A0A#16, 2)
  | .cbl _ _ _ => (0xFF00#16, 0xF400#16, 2)
  | .dcr _ _ => (0xFF00#16, 0xF700#16, 1)
  | .dc _ _ _ => (0xFF00#16, 0xF600#16, 2)
  | .nop => (0xFFFF#16, 0xFF00#16, 1)
  | .bpt => (0xFFFF#16, 0xFFFF#16, 1)
  | .builtin _ => (0xFF00#16, 0x4F00#16, 1)

/-- The first word of a well-formed instruction matches its row, and the encoding has the row's length. -/
def FirstWord.Statement (i : Instr) : Prop :=
  wellFormed i = true →
    ∃ w rest, encode i = w :: rest ∧ w &&& (tableRow i).1 = (tableRow i).2.1 ∧ rest.length + 1 = (tableRow i).2.2

theorem FirstWord.xio (ra : Reg) (rx : Reg) (addr : Word) : FirstWord.Statement (.xio ra rx addr) := fun _ => ⟨_, _, rfl, rr_and_ff00 _ _ _, rfl⟩

theorem FirstWord.vio (ra : Reg) (rx : Reg) (addr : Word) : FirstWord.Statement (.vio ra rx addr) := fun _ => ⟨_, _, rfl, rr_and_ff00 _ _ _, rfl⟩

theorem FirstWord.sbr (n : BitVec 4) (rb : Reg) : FirstWord.Statement (.sbr n rb) := fun _ => ⟨_, _, rfl, rr_and_ff00 _ _ _, rfl⟩

theorem FirstWord.sb (n : BitVec 4) (rx : Reg) (addr : Word) : FirstWord.Statement (.sb n rx addr) := fun _ => ⟨_, _, rfl, rr_and_ff00 _ _ _, rfl⟩

theorem FirstWord.sbi (n : BitVec 4) (rx : Reg) (addr : Word) : FirstWord.Statement (.sbi n rx addr) := fun _ => ⟨_, _, rfl, rr_and_ff00 _ _ _, rfl⟩

theorem FirstWord.rbr (n : BitVec 4) (rb : Reg) : FirstWord.Statement (.rbr n rb) := fun _ => ⟨_, _, rfl, rr_and_ff00 _ _ _, rfl⟩

theorem FirstWord.rb (n : BitVec 4) (rx : Reg) (addr : Word) : FirstWord.Statement (.rb n rx addr) := fun _ => ⟨_, _, rfl, rr_and_ff00 _ _ _, rfl⟩

theorem FirstWord.rbi (n : BitVec 4) (rx : Reg) (addr : Word) : FirstWord.Statement (.rbi n rx addr) := fun _ => ⟨_, _, rfl, rr_and_ff00 _ _ _, rfl⟩

theorem FirstWord.tbr (n : BitVec 4) (rb : Reg) : FirstWord.Statement (.tbr n rb) := fun _ => ⟨_, _, rfl, rr_and_ff00 _ _ _, rfl⟩

theorem FirstWord.tb (n : BitVec 4) (rx : Reg) (addr : Word) : FirstWord.Statement (.tb n rx addr) := fun _ => ⟨_, _, rfl, rr_and_ff00 _ _ _, rfl⟩

theorem FirstWord.tbi (n : BitVec 4) (rx : Reg) (addr : Word) : FirstWord.Statement (.tbi n rx addr) := fun _ => ⟨_, _, rfl, rr_and_ff00 _ _ _, rfl⟩

theorem FirstWord.tsb (n : BitVec 4) (rx : Reg) (addr : Word) : FirstWord.Statement (.tsb n rx addr) := fun _ => ⟨_, _, rfl, rr_and_ff00 _ _ _, rfl⟩

theorem FirstWord.svbr (ra : Reg) (rb : Reg) : FirstWord.Statement (.svbr ra rb) := fun _ => ⟨_, _, rfl, rr_and_ff00 _ _ _, rfl⟩

theorem FirstWord.rvbr (ra : Reg) (rb : Reg) : FirstWord.Statement (.rvbr ra rb) := fun _ => ⟨_, _, rfl, rr_and_ff00 _ _ _, rfl⟩

theorem FirstWord.tvbr (ra : Reg) (rb : Reg) : FirstWord.Statement (.tvbr ra rb) := fun _ => ⟨_, _, rfl, rr_and_ff00 _ _ _, rfl⟩

theorem FirstWord.sll (n : Nat) (rb : Reg) : FirstWord.Statement (.sll n rb) := fun _ => ⟨_, _, rfl, rr_and_ff00 _ _ _, rfl⟩

theorem FirstWord.srl (n : Nat) (rb : Reg) : FirstWord.Statement (.srl n rb) := fun _ => ⟨_, _, rfl, rr_and_ff00 _ _ _, rfl⟩

theorem FirstWord.sra (n : Nat) (rb : Reg) : FirstWord.Statement (.sra n rb) := fun _ => ⟨_, _, rfl, rr_and_ff00 _ _ _, rfl⟩

theorem FirstWord.slc (n : Nat) (rb : Reg) : FirstWord.Statement (.slc n rb) := fun _ => ⟨_, _, rfl, rr_and_ff00 _ _ _, rfl⟩

theorem FirstWord.dsll (n : Nat) (rb : Reg) : FirstWord.Statement (.dsll n rb) := fun _ => ⟨_, _, rfl, rr_and_ff00 _ _ _, rfl⟩

theorem FirstWord.dsrl (n : Nat) (rb : Reg) : FirstWord.Statement (.dsrl n rb) := fun _ => ⟨_, _, rfl, rr_and_ff00 _ _ _, rfl⟩

theorem FirstWord.dsra (n : Nat) (rb : Reg) : FirstWord.Statement (.dsra n rb) := fun _ => ⟨_, _, rfl, rr_and_ff00 _ _ _, rfl⟩

theorem FirstWord.dslc (n : Nat) (rb : Reg) : FirstWord.Statement (.dslc n rb) := fun _ => ⟨_, _, rfl, rr_and_ff00 _ _ _, rfl⟩

theorem FirstWord.slr (ra : Reg) (rb : Reg) : FirstWord.Statement (.slr ra rb) := fun _ => ⟨_, _, rfl, rr_and_ff00 _ _ _, rfl⟩

theorem FirstWord.sar (ra : Reg) (rb : Reg) : FirstWord.Statement (.sar ra rb) := fun _ => ⟨_, _, rfl, rr_and_ff00 _ _ _, rfl⟩

theorem FirstWord.scr (ra : Reg) (rb : Reg) : FirstWord.Statement (.scr ra rb) := fun _ => ⟨_, _, rfl, rr_and_ff00 _ _ _, rfl⟩

theorem FirstWord.dslr (ra : Reg) (rb : Reg) : FirstWord.Statement (.dslr ra rb) := fun _ => ⟨_, _, rfl, rr_and_ff00 _ _ _, rfl⟩

theorem FirstWord.dsar (ra : Reg) (rb : Reg) : FirstWord.Statement (.dsar ra rb) := fun _ => ⟨_, _, rfl, rr_and_ff00 _ _ _, rfl⟩

theorem FirstWord.dscr (ra : Reg) (rb : Reg) : FirstWord.Statement (.dscr ra rb) := fun _ => ⟨_, _, rfl, rr_and_ff00 _ _ _, rfl⟩

theorem FirstWord.jc (c : BitVec 4) (rx : Reg) (addr : Word) : FirstWord.Statement (.jc c rx addr) := fun _ => ⟨_, _, rfl, rr_and_ff00 _ _ _, rfl⟩

theorem FirstWord.jci (c : BitVec 4) (rx : Reg) (addr : Word) : FirstWord.Statement (.jci c rx addr) := fun _ => ⟨_, _, rfl, rr_and_ff00 _ _ _, rfl⟩

theorem FirstWord.js (ra : Reg) (rx : Reg) (addr : Word) : FirstWord.Statement (.js ra rx addr) := fun _ => ⟨_, _, rfl, rr_and_ff00 _ _ _, rfl⟩

theorem FirstWord.soj (ra : Reg) (rx : Reg) (addr : Word) : FirstWord.Statement (.soj ra rx addr) := fun _ => ⟨_, _, rfl, rr_and_ff00 _ _ _, rfl⟩

theorem FirstWord.br (d : BitVec 8) : FirstWord.Statement (.br d) := fun _ => ⟨_, _, rfl, special_and_ff00 _ _, rfl⟩

theorem FirstWord.bez (d : BitVec 8) : FirstWord.Statement (.bez d) := fun _ => ⟨_, _, rfl, special_and_ff00 _ _, rfl⟩

theorem FirstWord.blt (d : BitVec 8) : FirstWord.Statement (.blt d) := fun _ => ⟨_, _, rfl, special_and_ff00 _ _, rfl⟩

theorem FirstWord.ble (d : BitVec 8) : FirstWord.Statement (.ble d) := fun _ => ⟨_, _, rfl, special_and_ff00 _ _, rfl⟩

theorem FirstWord.bgt (d : BitVec 8) : FirstWord.Statement (.bgt d) := fun _ => ⟨_, _, rfl, special_and_ff00 _ _, rfl⟩

theorem FirstWord.bnz (d : BitVec 8) : FirstWord.Statement (.bnz d) := fun _ => ⟨_, _, rfl, special_and_ff00 _ _, rfl⟩

theorem FirstWord.bge (d : BitVec 8) : FirstWord.Statement (.bge d) := fun _ => ⟨_, _, rfl, special_and_ff00 _ _, rfl⟩

theorem FirstWord.lst (rx : Reg) (addr : Word) : FirstWord.Statement (.lst rx addr) := fun _ => ⟨_, _, rfl, rr_and_fff0 _ _ _, rfl⟩

theorem FirstWord.lsti (rx : Reg) (addr : Word) : FirstWord.Statement (.lsti rx addr) := fun _ => ⟨_, _, rfl, rr_and_fff0 _ _ _, rfl⟩

theorem FirstWord.bex (n : BitVec 4) : FirstWord.Statement (.bex n) := fun _ => ⟨_, _, rfl, rr_and_fff0 _ _ _, rfl⟩

theorem FirstWord.sjs (ra : Reg) (rx : Reg) (addr : Word) : FirstWord.Statement (.sjs ra rx addr) := fun _ => ⟨_, _, rfl, rr_and_ff00 _ _ _, rfl⟩

theorem FirstWord.urs (ra : Reg) : FirstWord.Statement (.urs ra) := fun _ => ⟨_, _, rfl, rr_and_ff0f _ _ _, rfl⟩

theorem FirstWord.l (ra : Reg) (rx : Reg) (addr : Word) : FirstWord.Statement (.l ra rx addr) := fun _ => ⟨_, _, rfl, rr_and_ff00 _ _ _, rfl⟩

theorem FirstWord.lr (ra : Reg) (rb : Reg) : FirstWord.Statement (.lr ra rb) := fun _ => ⟨_, _, rfl, rr_and_ff00 _ _ _, rfl⟩

theorem FirstWord.lb (br : Reg) (dspl : BitVec 8) : FirstWord.Statement (.lb br dspl) := fun _ => ⟨_, _, rfl, based_and_fc00 _ _ _, rfl⟩

theorem FirstWord.lbx (br : Reg) (rx : Reg) : FirstWord.Statement (.lbx br rx) := fun _ => ⟨_, _, rfl, based_and_fcf0 _ _ _ _, rfl⟩

theorem FirstWord.lisp (ra : Reg) (n : Nat) : FirstWord.Statement (.lisp ra n) := fun _ => ⟨_, _, rfl, rr_and_ff00 _ _ _, rfl⟩

theorem FirstWord.lisn (ra : Reg) (n : Nat) : FirstWord.Statement (.lisn ra n) := fun _ => ⟨_, _, rfl, rr_and_ff00 _ _ _, rfl⟩

theorem FirstWord.li (ra : Reg) (rx : Reg) (addr : Word) : FirstWord.Statement (.li ra rx addr) := fun _ => ⟨_, _, rfl, rr_and_ff00 _ _ _, rfl⟩

theorem FirstWord.lim (ra : Reg) (rx : Reg) (addr : Word) : FirstWord.Statement (.lim ra rx addr) := fun _ => ⟨_, _, rfl, rr_and_ff00 _ _ _, rfl⟩

theorem FirstWord.dl (ra : Reg) (rx : Reg) (addr : Word) : FirstWord.Statement (.dl ra rx addr) := fun _ => ⟨_, _, rfl, rr_and_ff00 _ _ _, rfl⟩

theorem FirstWord.dlr (ra : Reg) (rb : Reg) : FirstWord.Statement (.dlr ra rb) := fun _ => ⟨_, _, rfl, rr_and_ff00 _ _ _, rfl⟩

theorem FirstWord.dlb (br : Reg) (dspl : BitVec 8) : FirstWord.Statement (.dlb br dspl) := fun _ => ⟨_, _, rfl, based_and_fc00 _ _ _, rfl⟩

theorem FirstWord.dlbx (br : Reg) (rx : Reg) : FirstWord.Statement (.dlbx br rx) := fun _ => ⟨_, _, rfl, based_and_fcf0 _ _ _ _, rfl⟩

theorem FirstWord.dli (ra : Reg) (rx : Reg) (addr : Word) : FirstWord.Statement (.dli ra rx addr) := fun _ => ⟨_, _, rfl, rr_and_ff00 _ _ _, rfl⟩

theorem FirstWord.lm (n : BitVec 4) (rx : Reg) (addr : Word) : FirstWord.Statement (.lm n rx addr) := fun _ => ⟨_, _, rfl, rr_and_ff00 _ _ _, rfl⟩

theorem FirstWord.efl (ra : Reg) (rx : Reg) (addr : Word) : FirstWord.Statement (.efl ra rx addr) := fun _ => ⟨_, _, rfl, rr_and_ff00 _ _ _, rfl⟩

theorem FirstWord.lub (ra : Reg) (rx : Reg) (addr : Word) : FirstWord.Statement (.lub ra rx addr) := fun _ => ⟨_, _, rfl, rr_and_ff00 _ _ _, rfl⟩

theorem FirstWord.llb (ra : Reg) (rx : Reg) (addr : Word) : FirstWord.Statement (.llb ra rx addr) := fun _ => ⟨_, _, rfl, rr_and_ff00 _ _ _, rfl⟩

theorem FirstWord.lubi (ra : Reg) (rx : Reg) (addr : Word) : FirstWord.Statement (.lubi ra rx addr) := fun _ => ⟨_, _, rfl, rr_and_ff00 _ _ _, rfl⟩

theorem FirstWord.llbi (ra : Reg) (rx : Reg) (addr : Word) : FirstWord.Statement (.llbi ra rx addr) := fun _ => ⟨_, _, rfl, rr_and_ff00 _ _ _, rfl⟩

theorem FirstWord.popm (ra : Reg) (rb : Reg) : FirstWord.Statement (.popm ra rb) := fun _ => ⟨_, _, rfl, rr_and_ff00 _ _ _, rfl⟩

theorem FirstWord.st (ra : Reg) (rx : Reg) (addr : Word) : FirstWord.Statement (.st ra rx addr) := fun _ => ⟨_, _, rfl, rr_and_ff00 _ _ _, rfl⟩

theorem FirstWord.stb (br : Reg) (dspl : BitVec 8) : FirstWord.Statement (.stb br dspl) := fun _ => ⟨_, _, rfl, based_and_fc00 _ _ _, rfl⟩

theorem FirstWord.stbx (br : Reg) (rx : Reg) : FirstWord.Statement (.stbx br rx) := fun _ => ⟨_, _, rfl, based_and_fcf0 _ _ _ _, rfl⟩

theorem FirstWord.sti (ra : Reg) (rx : Reg) (addr : Word) : FirstWord.Statement (.sti ra rx addr) := fun _ => ⟨_, _, rfl, rr_and_ff00 _ _ _, rfl⟩

theorem FirstWord.stc (n : BitVec 4) (rx : Reg) (addr : Word) : FirstWord.Statement (.stc n rx addr) := fun _ => ⟨_, _, rfl, rr_and_ff00 _ _ _, rfl⟩

theorem FirstWord.stci (n : BitVec 4) (rx : Reg) (addr : Word) : FirstWord.Statement (.stci n rx addr) := fun _ => ⟨_, _, rfl, rr_and_ff00 _ _ _, rfl⟩

theorem FirstWord.dst (ra : Reg) (rx : Reg) (addr : Word) : FirstWord.Statement (.dst ra rx addr) := fun _ => ⟨_, _, rfl, rr_and_ff00 _ _ _, rfl⟩

theorem FirstWord.dstb (br : Reg) (dspl : BitVec 8) : FirstWord.Statement (.dstb br dspl) := fun _ => ⟨_, _, rfl, based_and_fc00 _ _ _, rfl⟩

theorem FirstWord.dstx (br : Reg) (rx : Reg) : FirstWord.Statement (.dstx br rx) := fun _ => ⟨_, _, rfl, based_and_fcf0 _ _ _ _, rfl⟩

theorem FirstWord.dsti (ra : Reg) (rx : Reg) (addr : Word) : FirstWord.Statement (.dsti ra rx addr) := fun _ => ⟨_, _, rfl, rr_and_ff00 _ _ _, rfl⟩

theorem FirstWord.srm (ra : Reg) (rx : Reg) (addr : Word) : FirstWord.Statement (.srm ra rx addr) := fun _ => ⟨_, _, rfl, rr_and_ff00 _ _ _, rfl⟩

theorem FirstWord.mov (ra : Reg) (rb : Reg) : FirstWord.Statement (.mov ra rb) := fun _ => ⟨_, _, rfl, rr_and_ff00 _ _ _, rfl⟩

theorem FirstWord.stm (n : BitVec 4) (rx : Reg) (addr : Word) : FirstWord.Statement (.stm n rx addr) := fun _ => ⟨_, _, rfl, rr_and_ff00 _ _ _, rfl⟩

theorem FirstWord.efst (ra : Reg) (rx : Reg) (addr : Word) : FirstWord.Statement (.efst ra rx addr) := fun _ => ⟨_, _, rfl, rr_and_ff00 _ _ _, rfl⟩

theorem FirstWord.stub (ra : Reg) (rx : Reg) (addr : Word) : FirstWord.Statement (.stub ra rx addr) := fun _ => ⟨_, _, rfl, rr_and_ff00 _ _ _, rfl⟩

theorem FirstWord.stlb (ra : Reg) (rx : Reg) (addr : Word) : FirstWord.Statement (.stlb ra rx addr) := fun _ => ⟨_, _, rfl, rr_and_ff00 _ _ _, rfl⟩

theorem FirstWord.subi (ra : Reg) (rx : Reg) (addr : Word) : FirstWord.Statement (.subi ra rx addr) := fun _ => ⟨_, _, rfl, rr_and_ff00 _ _ _, rfl⟩

theorem FirstWord.slbi (ra : Reg) (rx : Reg) (addr : Word) : FirstWord.Statement (.slbi ra rx addr) := fun _ => ⟨_, _, rfl, rr_and_ff00 _ _ _, rfl⟩

theorem FirstWord.pshm (ra : Reg) (rb : Reg) : FirstWord.Statement (.pshm ra rb) := fun _ => ⟨_, _, rfl, rr_and_ff00 _ _ _, rfl⟩

theorem FirstWord.ar (ra : Reg) (rb : Reg) : FirstWord.Statement (.ar ra rb) := fun _ => ⟨_, _, rfl, rr_and_ff00 _ _ _, rfl⟩

theorem FirstWord.ab (br : Reg) (dspl : BitVec 8) : FirstWord.Statement (.ab br dspl) := fun _ => ⟨_, _, rfl, based_and_fc00 _ _ _, rfl⟩

theorem FirstWord.abx (br : Reg) (rx : Reg) : FirstWord.Statement (.abx br rx) := fun _ => ⟨_, _, rfl, based_and_fcf0 _ _ _ _, rfl⟩

theorem FirstWord.aisp (ra : Reg) (n : Nat) : FirstWord.Statement (.aisp ra n) := fun _ => ⟨_, _, rfl, rr_and_ff00 _ _ _, rfl⟩

theorem FirstWord.a (ra : Reg) (rx : Reg) (addr : Word) : FirstWord.Statement (.a ra rx addr) := fun _ => ⟨_, _, rfl, rr_and_ff00 _ _ _, rfl⟩

theorem FirstWord.aim (ra : Reg) (data : Word) : FirstWord.Statement (.aim ra data) := fun _ => ⟨_, _, rfl, rr_and_ff0f _ _ _, rfl⟩

theorem FirstWord.incm (n : Nat) (rx : Reg) (addr : Word) : FirstWord.Statement (.incm n rx addr) := fun _ => ⟨_, _, rfl, rr_and_ff00 _ _ _, rfl⟩

theorem FirstWord.abs (ra : Reg) (rb : Reg) : FirstWord.Statement (.abs ra rb) := fun _ => ⟨_, _, rfl, rr_and_ff00 _ _ _, rfl⟩

theorem FirstWord.dabs (ra : Reg) (rb : Reg) : FirstWord.Statement (.dabs ra rb) := fun _ => ⟨_, _, rfl, rr_and_ff00 _ _ _, rfl⟩

theorem FirstWord.dar (ra : Reg) (rb : Reg) : FirstWord.Statement (.dar ra rb) := fun _ => ⟨_, _, rfl, rr_and_ff00 _ _ _, rfl⟩

theorem FirstWord.da (ra : Reg) (rx : Reg) (addr : Word) : FirstWord.Statement (.da ra rx addr) := fun _ => ⟨_, _, rfl, rr_and_ff00 _ _ _, rfl⟩

theorem FirstWord.sr (ra : Reg) (rb : Reg) : FirstWord.Statement (.sr ra rb) := fun _ => ⟨_, _, rfl, rr_and_ff00 _ _ _, rfl⟩

theorem FirstWord.sbb (br : Reg) (dspl : BitVec 8) : FirstWord.Statement (.sbb br dspl) := fun _ => ⟨_, _, rfl, based_and_fc00 _ _ _, rfl⟩

theorem FirstWord.sbbx (br : Reg) (rx : Reg) : FirstWord.Statement (.sbbx br rx) := fun _ => ⟨_, _, rfl, based_and_fcf0 _ _ _ _, rfl⟩

theorem FirstWord.sisp (ra : Reg) (n : Nat) : FirstWord.Statement (.sisp ra n) := fun _ => ⟨_, _, rfl, rr_and_ff00 _ _ _, rfl⟩

theorem FirstWord.s (ra : Reg) (rx : Reg) (addr : Word) : FirstWord.Statement (.s ra rx addr) := fun _ => ⟨_, _, rfl, rr_and_ff00 _ _ _, rfl⟩

theorem FirstWord.sim (ra : Reg) (data : Word) : FirstWord.Statement (.sim ra data) := fun _ => ⟨_, _, rfl, rr_and_ff0f _ _ _, rfl⟩

theorem FirstWord.decm (n : Nat) (rx : Reg) (addr : Word) : FirstWord.Statement (.decm n rx addr) := fun _ => ⟨_, _, rfl, rr_and_ff00 _ _ _, rfl⟩

theorem FirstWord.neg (ra : Reg) (rb : Reg) : FirstWord.Statement (.neg ra rb) := fun _ => ⟨_, _, rfl, rr_and_ff00 _ _ _, rfl⟩

theorem FirstWord.dneg (ra : Reg) (rb : Reg) : FirstWord.Statement (.dneg ra rb) := fun _ => ⟨_, _, rfl, rr_and_ff00 _ _ _, rfl⟩

theorem FirstWord.dsr (ra : Reg) (rb : Reg) : FirstWord.Statement (.dsr ra rb) := fun _ => ⟨_, _, rfl, rr_and_ff00 _ _ _, rfl⟩

theorem FirstWord.ds (ra : Reg) (rx : Reg) (addr : Word) : FirstWord.Statement (.ds ra rx addr) := fun _ => ⟨_, _, rfl, rr_and_ff00 _ _ _, rfl⟩

theorem FirstWord.msr (ra : Reg) (rb : Reg) : FirstWord.Statement (.msr ra rb) := fun _ => ⟨_, _, rfl, rr_and_ff00 _ _ _, rfl⟩

theorem FirstWord.misp (ra : Reg) (n : Nat) : FirstWord.Statement (.misp ra n) := fun _ => ⟨_, _, rfl, rr_and_ff00 _ _ _, rfl⟩

theorem FirstWord.misn (ra : Reg) (n : Nat) : FirstWord.Statement (.misn ra n) := fun _ => ⟨_, _, rfl, rr_and_ff00 _ _ _, rfl⟩

theorem FirstWord.ms (ra : Reg) (rx : Reg) (addr : Word) : FirstWord.Statement (.ms ra rx addr) := fun _ => ⟨_, _, rfl, rr_and_ff00 _ _ _, rfl⟩

theorem FirstWord.msim (ra : Reg) (data : Word) : FirstWord.Statement (.msim ra data) := fun _ => ⟨_, _, rfl, rr_and_ff0f _ _ _, rfl⟩

theorem FirstWord.mr (ra : Reg) (rb : Reg) : FirstWord.Statement (.mr ra rb) := fun _ => ⟨_, _, rfl, rr_and_ff00 _ _ _, rfl⟩

theorem FirstWord.mb (br : Reg) (dspl : BitVec 8) : FirstWord.Statement (.mb br dspl) := fun _ => ⟨_, _, rfl, based_and_fc00 _ _ _, rfl⟩

theorem FirstWord.mbx (br : Reg) (rx : Reg) : FirstWord.Statement (.mbx br rx) := fun _ => ⟨_, _, rfl, based_and_fcf0 _ _ _ _, rfl⟩

theorem FirstWord.m (ra : Reg) (rx : Reg) (addr : Word) : FirstWord.Statement (.m ra rx addr) := fun _ => ⟨_, _, rfl, rr_and_ff00 _ _ _, rfl⟩

theorem FirstWord.mim (ra : Reg) (data : Word) : FirstWord.Statement (.mim ra data) := fun _ => ⟨_, _, rfl, rr_and_ff0f _ _ _, rfl⟩

theorem FirstWord.dmr (ra : Reg) (rb : Reg) : FirstWord.Statement (.dmr ra rb) := fun _ => ⟨_, _, rfl, rr_and_ff00 _ _ _, rfl⟩

theorem FirstWord.dm (ra : Reg) (rx : Reg) (addr : Word) : FirstWord.Statement (.dm ra rx addr) := fun _ => ⟨_, _, rfl, rr_and_ff00 _ _ _, rfl⟩

theorem FirstWord.dvr (ra : Reg) (rb : Reg) : FirstWord.Statement (.dvr ra rb) := fun _ => ⟨_, _, rfl, rr_and_ff00 _ _ _, rfl⟩

theorem FirstWord.disp (ra : Reg) (n : Nat) : FirstWord.Statement (.disp ra n) := fun _ => ⟨_, _, rfl, rr_and_ff00 _ _ _, rfl⟩

theorem FirstWord.disn (ra : Reg) (n : Nat) : FirstWord.Statement (.disn ra n) := fun _ => ⟨_, _, rfl, rr_and_ff00 _ _ _, rfl⟩

theorem FirstWord.dv (ra : Reg) (rx : Reg) (addr : Word) : FirstWord.Statement (.dv ra rx addr) := fun _ => ⟨_, _, rfl, rr_and_ff00 _ _ _, rfl⟩

theorem FirstWord.dvim (ra : Reg) (data : Word) : FirstWord.Statement (.dvim ra data) := fun _ => ⟨_, _, rfl, rr_and_ff0f _ _ _, rfl⟩

theorem FirstWord.dr (ra : Reg) (rb : Reg) : FirstWord.Statement (.dr ra rb) := fun _ => ⟨_, _, rfl, rr_and_ff00 _ _ _, rfl⟩

theorem FirstWord.db (br : Reg) (dspl : BitVec 8) : FirstWord.Statement (.db br dspl) := fun _ => ⟨_, _, rfl, based_and_fc00 _ _ _, rfl⟩

theorem FirstWord.dbx (br : Reg) (rx : Reg) : FirstWord.Statement (.dbx br rx) := fun _ => ⟨_, _, rfl, based_and_fcf0 _ _ _ _, rfl⟩

theorem FirstWord.d (ra : Reg) (rx : Reg) (addr : Word) : FirstWord.Statement (.d ra rx addr) := fun _ => ⟨_, _, rfl, rr_and_ff00 _ _ _, rfl⟩

theorem FirstWord.dim (ra : Reg) (data : Word) : FirstWord.Statement (.dim ra data) := fun _ => ⟨_, _, rfl, rr_and_ff0f _ _ _, rfl⟩

theorem FirstWord.ddr (ra : Reg) (rb : Reg) : FirstWord.Statement (.ddr ra rb) := fun _ => ⟨_, _, rfl, rr_and_ff00 _ _ _, rfl⟩

theorem FirstWord.dd (ra : Reg) (rx : Reg) (addr : Word) : FirstWord.Statement (.dd ra rx addr) := fun _ => ⟨_, _, rfl, rr_and_ff00 _ _ _, rfl⟩

theorem FirstWord.far (ra : Reg) (rb : Reg) : FirstWord.Statement (.far ra rb) := fun _ => ⟨_, _, rfl, rr_and_ff00 _ _ _, rfl⟩

theorem FirstWord.fab (br : Reg) (dspl : BitVec 8) : FirstWord.Statement (.fab br dspl) := fun _ => ⟨_, _, rfl, based_and_fc00 _ _ _, rfl⟩

theorem FirstWord.fabx (br : Reg) (rx : Reg) : FirstWord.Statement (.fabx br rx) := fun _ => ⟨_, _, rfl, based_and_fcf0 _ _ _ _, rfl⟩

theorem FirstWord.fa (ra : Reg) (rx : Reg) (addr : Word) : FirstWord.Statement (.fa ra rx addr) := fun _ => ⟨_, _, rfl, rr_and_ff00 _ _ _, rfl⟩

theorem FirstWord.efar (ra : Reg) (rb : Reg) : FirstWord.Statement (.efar ra rb) := fun _ => ⟨_, _, rfl, rr_and_ff00 _ _ _, rfl⟩

theorem FirstWord.efa (ra : Reg) (rx : Reg) (addr : Word) : FirstWord.Statement (.efa ra rx addr) := fun _ => ⟨_, _, rfl, rr_and_ff00 _ _ _, rfl⟩

theorem FirstWord.fsr (ra : Reg) (rb : Reg) : FirstWord.Statement (.fsr ra rb) := fun _ => ⟨_, _, rfl, rr_and_ff00 _ _ _, rfl⟩

theorem FirstWord.fsb (br : Reg) (dspl : BitVec 8) : FirstWord.Statement (.fsb br dspl) := fun _ => ⟨_, _, rfl, based_and_fc00 _ _ _, rfl⟩

theorem FirstWord.fsbx (br : Reg) (rx : Reg) : FirstWord.Statement (.fsbx br rx) := fun _ => ⟨_, _, rfl, based_and_fcf0 _ _ _ _, rfl⟩

theorem FirstWord.fs (ra : Reg) (rx : Reg) (addr : Word) : FirstWord.Statement (.fs ra rx addr) := fun _ => ⟨_, _, rfl, rr_and_ff00 _ _ _, rfl⟩

theorem FirstWord.efsr (ra : Reg) (rb : Reg) : FirstWord.Statement (.efsr ra rb) := fun _ => ⟨_, _, rfl, rr_and_ff00 _ _ _, rfl⟩

theorem FirstWord.efs (ra : Reg) (rx : Reg) (addr : Word) : FirstWord.Statement (.efs ra rx addr) := fun _ => ⟨_, _, rfl, rr_and_ff00 _ _ _, rfl⟩

theorem FirstWord.fabs (ra : Reg) (rb : Reg) : FirstWord.Statement (.fabs ra rb) := fun _ => ⟨_, _, rfl, rr_and_ff00 _ _ _, rfl⟩

theorem FirstWord.fneg (ra : Reg) (rb : Reg) : FirstWord.Statement (.fneg ra rb) := fun _ => ⟨_, _, rfl, rr_and_ff00 _ _ _, rfl⟩

theorem FirstWord.fmr (ra : Reg) (rb : Reg) : FirstWord.Statement (.fmr ra rb) := fun _ => ⟨_, _, rfl, rr_and_ff00 _ _ _, rfl⟩

theorem FirstWord.fmb (br : Reg) (dspl : BitVec 8) : FirstWord.Statement (.fmb br dspl) := fun _ => ⟨_, _, rfl, based_and_fc00 _ _ _, rfl⟩

theorem FirstWord.fmbx (br : Reg) (rx : Reg) : FirstWord.Statement (.fmbx br rx) := fun _ => ⟨_, _, rfl, based_and_fcf0 _ _ _ _, rfl⟩

theorem FirstWord.fm (ra : Reg) (rx : Reg) (addr : Word) : FirstWord.Statement (.fm ra rx addr) := fun _ => ⟨_, _, rfl, rr_and_ff00 _ _ _, rfl⟩

theorem FirstWord.efmr (ra : Reg) (rb : Reg) : FirstWord.Statement (.efmr ra rb) := fun _ => ⟨_, _, rfl, rr_and_ff00 _ _ _, rfl⟩

theorem FirstWord.efm (ra : Reg) (rx : Reg) (addr : Word) : FirstWord.Statement (.efm ra rx addr) := fun _ => ⟨_, _, rfl, rr_and_ff00 _ _ _, rfl⟩

theorem FirstWord.fdr (ra : Reg) (rb : Reg) : FirstWord.Statement (.fdr ra rb) := fun _ => ⟨_, _, rfl, rr_and_ff00 _ _ _, rfl⟩

theorem FirstWord.fdb (br : Reg) (dspl : BitVec 8) : FirstWord.Statement (.fdb br dspl) := fun _ => ⟨_, _, rfl, based_and_fc00 _ _ _, rfl⟩

theorem FirstWord.fdbx (br : Reg) (rx : Reg) : FirstWord.Statement (.fdbx br rx) := fun _ => ⟨_, _, rfl, based_and_fcf0 _ _ _ _, rfl⟩

theorem FirstWord.fd (ra : Reg) (rx : Reg) (addr : Word) : FirstWord.Statement (.fd ra rx addr) := fun _ => ⟨_, _, rfl, rr_and_ff00 _ _ _, rfl⟩

theorem FirstWord.efdr (ra : Reg) (rb : Reg) : FirstWord.Statement (.efdr ra rb) := fun _ => ⟨_, _, rfl, rr_and_ff00 _ _ _, rfl⟩

theorem FirstWord.efd (ra : Reg) (rx : Reg) (addr : Word) : FirstWord.Statement (.efd ra rx addr) := fun _ => ⟨_, _, rfl, rr_and_ff00 _ _ _, rfl⟩

theorem FirstWord.fix (ra : Reg) (rb : Reg) : FirstWord.Statement (.fix ra rb) := fun _ => ⟨_, _, rfl, rr_and_ff00 _ _ _, rfl⟩

theorem FirstWord.flt (ra : Reg) (rb : Reg) : FirstWord.Statement (.flt ra rb) := fun _ => ⟨_, _, rfl, rr_and_ff00 _ _ _, rfl⟩

theorem FirstWord.efix (ra : Reg) (rb : Reg) : FirstWord.Statement (.efix ra rb) := fun _ => ⟨_, _, rfl, rr_and_ff00 _ _ _, rfl⟩

theorem FirstWord.eflt (ra : Reg) (rb : Reg) : FirstWord.Statement (.eflt ra rb) := fun _ => ⟨_, _, rfl, rr_and_ff00 _ _ _, rfl⟩

theorem FirstWord.fcr (ra : Reg) (rb : Reg) : FirstWord.Statement (.fcr ra rb) := fun _ => ⟨_, _, rfl, rr_and_ff00 _ _ _, rfl⟩

theorem FirstWord.fcb (br : Reg) (dspl : BitVec 8) : FirstWord.Statement (.fcb br dspl) := fun _ => ⟨_, _, rfl, based_and_fc00 _ _ _, rfl⟩

theorem FirstWord.fcbx (br : Reg) (rx : Reg) : FirstWord.Statement (.fcbx br rx) := fun _ => ⟨_, _, rfl, based_and_fcf0 _ _ _ _, rfl⟩

theorem FirstWord.fc (ra : Reg) (rx : Reg) (addr : Word) : FirstWord.Statement (.fc ra rx addr) := fun _ => ⟨_, _, rfl, rr_and_ff00 _ _ _, rfl⟩

theorem FirstWord.efcr (ra : Reg) (rb : Reg) : FirstWord.Statement (.efcr ra rb) := fun _ => ⟨_, _, rfl, rr_and_ff00 _ _ _, rfl⟩

theorem FirstWord.efc (ra : Reg) (rx : Reg) (addr : Word) : FirstWord.Statement (.efc ra rx addr) := fun _ => ⟨_, _, rfl, rr_and_ff00 _ _ _, rfl⟩

theorem FirstWord.orr (ra : Reg) (rb : Reg) : FirstWord.Statement (.orr ra rb) := fun _ => ⟨_, _, rfl, rr_and_ff00 _ _ _, rfl⟩

theorem FirstWord.orb (br : Reg) (dspl : BitVec 8) : FirstWord.Statement (.orb br dspl) := fun _ => ⟨_, _, rfl, based_and_fc00 _ _ _, rfl⟩

theorem FirstWord.orbx (br : Reg) (rx : Reg) : FirstWord.Statement (.orbx br rx) := fun _ => ⟨_, _, rfl, based_and_fcf0 _ _ _ _, rfl⟩

theorem FirstWord.or (ra : Reg) (rx : Reg) (addr : Word) : FirstWord.Statement (.or ra rx addr) := fun _ => ⟨_, _, rfl, rr_and_ff00 _ _ _, rfl⟩

theorem FirstWord.orim (ra : Reg) (data : Word) : FirstWord.Statement (.orim ra data) := fun _ => ⟨_, _, rfl, rr_and_ff0f _ _ _, rfl⟩

theorem FirstWord.andr (ra : Reg) (rb : Reg) : FirstWord.Statement (.andr ra rb) := fun _ => ⟨_, _, rfl, rr_and_ff00 _ _ _, rfl⟩

theorem FirstWord.andb (br : Reg) (dspl : BitVec 8) : FirstWord.Statement (.andb br dspl) := fun _ => ⟨_, _, rfl, based_and_fc00 _ _ _, rfl⟩

theorem FirstWord.andx (br : Reg) (rx : Reg) : FirstWord.Statement (.andx br rx) := fun _ => ⟨_, _, rfl, based_and_fcf0 _ _ _ _, rfl⟩

theorem FirstWord.and (ra : Reg) (rx : Reg) (addr : Word) : FirstWord.Statement (.and ra rx addr) := fun _ => ⟨_, _, rfl, rr_and_ff00 _ _ _, rfl⟩

theorem FirstWord.andm (ra : Reg) (data : Word) : FirstWord.Statement (.andm ra data) := fun _ => ⟨_, _, rfl, rr_and_ff0f _ _ _, rfl⟩

theorem FirstWord.xorr (ra : Reg) (rb : Reg) : FirstWord.Statement (.xorr ra rb) := fun _ => ⟨_, _, rfl, rr_and_ff00 _ _ _, rfl⟩

theorem FirstWord.xor (ra : Reg) (rx : Reg) (addr : Word) : FirstWord.Statement (.xor ra rx addr) := fun _ => ⟨_, _, rfl, rr_and_ff00 _ _ _, rfl⟩

theorem FirstWord.xorm (ra : Reg) (data : Word) : FirstWord.Statement (.xorm ra data) := fun _ => ⟨_, _, rfl, rr_and_ff0f _ _ _, rfl⟩

theorem FirstWord.nr (ra : Reg) (rb : Reg) : FirstWord.Statement (.nr ra rb) := fun _ => ⟨_, _, rfl, rr_and_ff00 _ _ _, rfl⟩

theorem FirstWord.n (ra : Reg) (rx : Reg) (addr : Word) : FirstWord.Statement (.n ra rx addr) := fun _ => ⟨_, _, rfl, rr_and_ff00 _ _ _, rfl⟩

theorem FirstWord.nim (ra : Reg) (data : Word) : FirstWord.Statement (.nim ra data) := fun _ => ⟨_, _, rfl, rr_and_ff0f _ _ _, rfl⟩

theorem FirstWord.xbr (ra : Reg) : FirstWord.Statement (.xbr ra) := fun _ => ⟨_, _, rfl, rr_and_ff0f _ _ _, rfl⟩

theorem FirstWord.xwr (ra : Reg) (rb : Reg) : FirstWord.Statement (.xwr ra rb) := fun _ => ⟨_, _, rfl, rr_and_ff00 _ _ _, rfl⟩

theorem FirstWord.cr (ra : Reg) (rb : Reg) : FirstWord.Statement (.cr ra rb) := fun _ => ⟨_, _, rfl, rr_and_ff00 _ _ _, rfl⟩

theorem FirstWord.cb (br : Reg) (dspl : BitVec 8) : FirstWord.Statement (.cb br dspl) := fun _ => ⟨_, _, rfl, based_and_fc00 _ _ _, rfl⟩

theorem FirstWord.cbx (br : Reg) (rx : Reg) : FirstWord.Statement (.cbx br rx) := fun _ => ⟨_, _, rfl, based_and_fcf0 _ _ _ _, rfl⟩

theorem FirstWord.cisp (ra : Reg) (n : Nat) : FirstWord.Statement (.cisp ra n) := fun _ => ⟨_, _, rfl, rr_and_ff00 _ _ _, rfl⟩

theorem FirstWord.cisn (ra : Reg) (n : Nat) : FirstWord.Statement (.cisn ra n) := fun _ => ⟨_, _, rfl, rr_and_ff00 _ _ _, rfl⟩

theorem FirstWord.c (ra : Reg) (rx : Reg) (addr : Word) : FirstWord.Statement (.c ra rx addr) := fun _ => ⟨_, _, rfl, rr_and_ff00 _ _ _, rfl⟩

theorem FirstWord.cim (ra : Reg) (data : Word) : FirstWord.Statement (.cim ra data) := fun _ => ⟨_, _, rfl, rr_and_ff0f _ _ _, rfl⟩

theorem FirstWord.cbl (ra : Reg) (rx : Reg) (addr : Word) : FirstWord.Statement (.cbl ra rx addr) := fun _ => ⟨_, _, rfl, rr_and_ff00 _ _ _, rfl⟩

theorem FirstWord.dcr (ra : Reg) (rb : Reg) : FirstWord.Statement (.dcr ra rb) := fun _ => ⟨_, _, rfl, rr_and_ff00 _ _ _, rfl⟩

theorem FirstWord.dc (ra : Reg) (rx : Reg) (addr : Word) : FirstWord.Statement (.dc ra rx addr) := fun _ => ⟨_, _, rfl, rr_and_ff00 _ _ _, rfl⟩

theorem FirstWord.nop : FirstWord.Statement (.nop) := fun _ => ⟨_, _, rfl, rfl, rfl⟩

theorem FirstWord.bpt : FirstWord.Statement (.bpt) := fun _ => ⟨_, _, rfl, rfl, rfl⟩

theorem FirstWord.builtin (opex : BitVec 8) : FirstWord.Statement (.builtin opex) := fun _ => ⟨_, _, rfl, special_and_ff00 _ _, rfl⟩

end Sys2Proof.Laws
end

