-- ==== Sys2Proof/Machine/Run.lean ====
section
/-! DEFINITION. A modelled run and its end (70_reset_and_hazards.md R891, D18, D19). The machine itself takes the machine
error interrupt and goes on after a fault (60_exceptions.md R815); a modelled run ends there. -/

namespace Sys2Proof.Machine

/-- Why a modelled run ends (R891). -/
inductive RunEnd where
  /-- BPT with a console connected (R891a). -/
  | breakpoint
  /-- A fault of the CPU's own instruction or interrupt sequence, bits other than 5: the FT bit it set (R891b,
  60_exceptions.md R806, R816). -/
  | faulted (b : FaultBit)
  /-- The model refuses (R891c). -/
  | refused (r : Refusal)
  /-- The step budget is exhausted (R891d). -/
  | budget
deriving DecidableEq, Repr

/-- The first fault of the interrupt sequences that `State.recognize` would run: its FT bit and the state at the fault
(60_exceptions.md R816). -/
def State.sequenceFault : Nat → State → Option (FaultBit × State)
  | 0, _ => none
  | fuel + 1, s =>
    match s.nextInterrupt with
    | none => none
    | some n =>
      match s.enterInterrupt n 0 s.ic with
      | .done t => State.sequenceFault fuel t.runEvents
      | .faulted f t => some (f.bit, t.raise f)

/-- The first fault of a step, its FT bit and the state at the fault: the fault of the instruction, which left `s`, before
its boundary; where it raised none, that of the first faulting sequence of the boundary. -/
def State.runFault (was : Bool) (s : State) : Option (FaultBit × State) :=
  match s.raised with
  | some b => some (b, s)
  | none =>
    let t := s.runEvents.endEnable was
    if t.halted then none else State.sequenceFault (16 + t.schedule.length) t.interruptPoint

/-- No fault raised yet: a modelled run looks at the faults of each instruction anew. -/
def State.clearRaised (s : State) : State := { s with raised := none }

/-- A modelled run of at most `n` steps: its end and the state there (R891). A fault ends it where it is raised: nothing
after it is done, the machine error interrupt included (60_exceptions.md R806, D18). -/
def modelledRun : Nat → State → RunEnd × State
  | 0, s => (.budget, s)
  | n + 1, s =>
    if s.halted then (.breakpoint, s)
    else
      match s.clearRaised.runInstruction with
      | .fault .haltedAtBreakpoint => (.breakpoint, s)
      | .refused r => (.refused r, s)
      | .next u =>
        match u.runFault s.enblPending with
        | some (b, t) => (.faulted b, t)
        | none =>
          if (u.boundary s.enblPending).halted then (.breakpoint, u.boundary s.enblPending)
          else modelledRun n (u.boundary s.enblPending)

end Sys2Proof.Machine
end

