-- ==== Sys2Proof/Laws/Run.lean ====
section
/-! SUPPORT. The step in its two parts, and where a modelled run ends (70_reset_and_hazards.md R891). -/

namespace Sys2Proof.Machine

/-- A running processor's step: the instruction, then its boundary. -/
theorem step_running {s : State} (h : s.halted = false) : step s = finishStep s.enblPending s.runInstruction := by
  simp [step, h]

theorem step_halted {s : State} (h : s.halted = true) : step s = .fault .haltedAtBreakpoint := by
  simp [step, h]

/-- The fault a boundary ends a modelled run at is one `State.raise`, and the bit named is the one it raises. -/
theorem State.sequenceFault_raise {fuel : Nat} {s t : State} {b : FaultBit}
    (h : State.sequenceFault fuel s = some (b, t)) : ∃ f u, t = State.raise u f ∧ b = f.bit := by
  induction fuel generalizing s with
  | zero => cases h
  | succ fuel ih =>
    unfold State.sequenceFault at h
    split at h
    · cases h
    · split at h
      · exact ih h
      · cases h; exact ⟨_, _, rfl, rfl⟩

/-- A modelled run that ends in a fault names the bit that the fault raised. -/
theorem State.runFault_raised {was : Bool} {s t : State} {b : FaultBit} (h : s.runFault was = some (b, t)) :
    t.raised = some b := by
  unfold State.runFault at h
  split at h
  · cases h; assumption
  · simp only at h
    split at h
    · cases h
    · obtain ⟨f, u, rfl, rfl⟩ := State.sequenceFault_raise h
      simp

/-- A fault of an instruction ends a modelled run before the boundary, whatever the boundary would do. -/
theorem modelledRun_fault {s u : State} {b : FaultBit} (n : Nat) (hs : s.halted = false)
    (hu : s.clearRaised.runInstruction = .next u) (hb : u.raised = some b) :
    modelledRun (n + 1) s = (.faulted b, u) := by
  simp [modelledRun, hs, hu, State.runFault, hb]

/-- Where nothing faults and the processor is not halted, a modelled run goes on at the state `step` answers. -/
theorem modelledRun_next {s u : State} (n : Nat) (hs : s.halted = false)
    (hu : s.clearRaised.runInstruction = .next u) (hb : u.runFault s.enblPending = none)
    (hh : (u.boundary s.enblPending).halted = false) :
    step s.clearRaised = .next (u.boundary s.enblPending) ∧
      modelledRun (n + 1) s = modelledRun n (u.boundary s.enblPending) :=
  ⟨by rw [step_running (s := s.clearRaised) hs, hu]; rfl, by simp [modelledRun, hs, hu, hb, hh]⟩

end Sys2Proof.Machine
end

