-- ==== Sys2Proof/Tests/Slice0.lean ====
section
/-! SUPPORT. The model's own tests: what wellFormed refuses, a word of every row of the opcode table decoded, single
steps on the vectors of 95_test_vectors.md and 96_test_vectors_part2.md (each theorem's name ends in its vector), and
for
every statement with hypotheses a state that meets them. -/

set_option maxRecDepth 8000

namespace Sys2Proof.Tests

open Sys2Proof.Machine

/-! ### WellFormed -/

/-- Every instruction with a base register refuses R11 (10_state.md R31b). -/
theorem test_wellFormed_base :
    ([.lb 11 0, .lbx 11 0, .dlb 11 0, .dlbx 11 0, .stb 11 0, .stbx 11 0, .dstb 11 0, .dstx 11 0, .ab 11 0, .abx 11 0,
      .sbb 11 0, .sbbx 11 0, .mb 11 0, .mbx 11 0, .db 11 0, .dbx 11 0, .fab 11 0, .fabx 11 0, .fsb 11 0, .fsbx 11 0,
      .fmb 11 0, .fmbx 11 0, .fdb 11 0, .fdbx 11 0, .fcb 11 0, .fcbx 11 0, .orb 11 0, .orbx 11 0, .andb 11 0,
        .andx 11 0,
      .cb 11 0, .cbx 11 0] : List Instr).all (fun i => !wellFormed i) = true := by decide

/-- The instructions with a count or a short immediate. -/
def counted (n : Nat) : List Instr :=
  [.sll n 1, .srl n 1, .sra n 1, .slc n 1, .dsll n 1, .dsrl n 1, .dsra n 1, .dslc n 1, .lisp 1 n, .lisn 1 n, .aisp 1 n,
    .incm n 1 0, .sisp 1 n, .decm n 1 0, .misp 1 n, .misn 1 n, .disp 1 n, .disn 1 n, .cisp 1 n, .cisn 1 n]

/-- Each refuses a count of 0 and of 17 and admits 1 and 16 (30_encoding.md R181, R200). -/
theorem test_wellFormed_count :
    ((counted 0 ++ counted 17).all (fun i => !wellFormed i) &&
      (counted 1 ++ counted 16).all wellFormed) = true := by decide

/-! ### Decoding: bits 7 to 4 of the first word D, bits 3 to 0 of it 6, BR' 2, second word 89AB -/

/-- The decoder reads the instruction from the bits. -/
def reads (x : Nat × Nat × Instr) : Bool := decodeTableWord x.1 x.2.1 == some x.2.2

theorem test_decode_io :
    ([(32, 0x89AB48D6, .xio 13 6 0x89AB), (32, 0x89AB49D6, .vio 13 6 0x89AB)] :
      List (Nat × Nat × Instr)).all reads = true := by decide

theorem test_decode_bit :
    ([(16, 0x51D6, .sbr 13 6), (32, 0x89AB50D6, .sb 13 6 0x89AB), (32, 0x89AB52D6, .sbi 13 6 0x89AB),
      (16, 0x54D6, .rbr 13 6), (32, 0x89AB53D6, .rb 13 6 0x89AB), (32, 0x89AB55D6, .rbi 13 6 0x89AB),
      (16, 0x57D6, .tbr 13 6), (32, 0x89AB56D6, .tb 13 6 0x89AB), (32, 0x89AB58D6, .tbi 13 6 0x89AB),
      (32, 0x89AB59D6, .tsb 13 6 0x89AB), (16, 0x5AD6, .svbr 13 6), (16, 0x5CD6, .rvbr 13 6),
      (16, 0x5ED6, .tvbr 13 6)] :
      List (Nat × Nat × Instr)).all reads = true := by decide

theorem test_decode_shift :
    ([(16, 0x60D6, .sll 14 6), (16, 0x61D6, .srl 14 6), (16, 0x62D6, .sra 14 6), (16, 0x63D6, .slc 14 6),
      (16, 0x65D6, .dsll 14 6), (16, 0x66D6, .dsrl 14 6), (16, 0x67D6, .dsra 14 6), (16, 0x68D6, .dslc 14 6),
      (16, 0x6AD6, .slr 13 6), (16, 0x6BD6, .sar 13 6), (16, 0x6CD6, .scr 13 6), (16, 0x6DD6, .dslr 13 6),
      (16, 0x6ED6, .dsar 13 6), (16, 0x6FD6, .dscr 13 6)] :
      List (Nat × Nat × Instr)).all reads = true := by decide

theorem test_decode_jump_branch :
    ([(32, 0x89AB70D6, .jc 13 6 0x89AB), (32, 0x89AB71D6, .jci 13 6 0x89AB), (32, 0x89AB72D6, .js 13 6 0x89AB),
      (32, 0x89AB73D6, .soj 13 6 0x89AB), (16, 0x74D6, .br 0xD6), (16, 0x75D6, .bez 0xD6), (16, 0x76D6, .blt 0xD6),
      (16, 0x78D6, .ble 0xD6), (16, 0x79D6, .bgt 0xD6), (16, 0x7AD6, .bnz 0xD6), (16, 0x7BD6, .bge 0xD6),
      (32, 0x89AB7D06, .lst 6 0x89AB), (32, 0x89AB7C06, .lsti 6 0x89AB), (16, 0x7706, .bex 6),
      (32, 0x89AB7ED6, .sjs 13 6 0x89AB), (16, 0x7FD0, .urs 13)] :
      List (Nat × Nat × Instr)).all reads = true := by decide

theorem test_decode_load :
    ([(32, 0x89AB80D6, .l 13 6 0x89AB), (16, 0x81D6, .lr 13 6), (16, 0x02D6, .lb 14 0xD6), (16, 0x4206, .lbx 14 6),
      (16, 0x82D6, .lisp 13 7), (16, 0x83D6, .lisn 13 7), (32, 0x89AB84D6, .li 13 6 0x89AB),
      (32, 0x89AB85D6, .lim 13 6 0x89AB), (32, 0x89AB86D6, .dl 13 6 0x89AB), (16, 0x87D6, .dlr 13 6),
      (16, 0x06D6, .dlb 14 0xD6), (16, 0x4216, .dlbx 14 6), (32, 0x89AB88D6, .dli 13 6 0x89AB),
      (32, 0x89AB89D6, .lm 13 6 0x89AB), (32, 0x89AB8AD6, .efl 13 6 0x89AB), (32, 0x89AB8BD6, .lub 13 6 0x89AB),
      (32, 0x89AB8CD6, .llb 13 6 0x89AB), (32, 0x89AB8DD6, .lubi 13 6 0x89AB), (32, 0x89AB8ED6, .llbi 13 6 0x89AB),
      (16, 0x8FD6, .popm 13 6)] :
      List (Nat × Nat × Instr)).all reads = true := by decide

theorem test_decode_store :
    ([(32, 0x89AB90D6, .st 13 6 0x89AB), (16, 0x0AD6, .stb 14 0xD6), (16, 0x4226, .stbx 14 6),
      (32, 0x89AB94D6, .sti 13 6 0x89AB), (32, 0x89AB91D6, .stc 13 6 0x89AB), (32, 0x89AB92D6, .stci 13 6 0x89AB),
      (32, 0x89AB96D6, .dst 13 6 0x89AB), (16, 0x0ED6, .dstb 14 0xD6), (16, 0x4236, .dstx 14 6),
      (32, 0x89AB98D6, .dsti 13 6 0x89AB), (32, 0x89AB97D6, .srm 13 6 0x89AB), (16, 0x93D6, .mov 13 6),
      (32, 0x89AB99D6, .stm 13 6 0x89AB), (32, 0x89AB9AD6, .efst 13 6 0x89AB), (32, 0x89AB9BD6, .stub 13 6 0x89AB),
      (32, 0x89AB9CD6, .stlb 13 6 0x89AB), (32, 0x89AB9DD6, .subi 13 6 0x89AB),
      (32, 0x89AB9ED6, .slbi 13 6 0x89AB), (16, 0x9FD6, .pshm 13 6)] :
      List (Nat × Nat × Instr)).all reads = true := by decide

theorem test_decode_int_addsub_1 :
    ([(16, 0xA1D6, .ar 13 6), (16, 0x12D6, .ab 14 0xD6), (16, 0x4246, .abx 14 6), (16, 0xA2D6, .aisp 13 7),
      (32, 0x89ABA0D6, .a 13 6 0x89AB), (32, 0x89AB4AD1, .aim 13 0x89AB), (32, 0x89ABA3D6, .incm 14 6 0x89AB),
      (16, 0xA4D6, .abs 13 6), (16, 0xA5D6, .dabs 13 6), (16, 0xA7D6, .dar 13 6),
      (32, 0x89ABA6D6, .da 13 6 0x89AB), (16, 0xB1D6, .sr 13 6), (16, 0x16D6, .sbb 14 0xD6),
      (16, 0x4256, .sbbx 14 6), (16, 0xB2D6, .sisp 13 7), (32, 0x89ABB0D6, .s 13 6 0x89AB),
      (32, 0x89AB4AD2, .sim 13 0x89AB), (32, 0x89ABB3D6, .decm 14 6 0x89AB), (16, 0xB4D6, .neg 13 6),
      (16, 0xB5D6, .dneg 13 6)] :
      List (Nat × Nat × Instr)).all reads = true := by decide

theorem test_decode_int_addsub_2 :
    ([(16, 0xB7D6, .dsr 13 6), (32, 0x89ABB6D6, .ds 13 6 0x89AB)] :
      List (Nat × Nat × Instr)).all reads = true := by decide

theorem test_decode_int_muldiv_1 :
    ([(16, 0xC1D6, .msr 13 6), (16, 0xC2D6, .misp 13 7), (16, 0xC3D6, .misn 13 7),
      (32, 0x89ABC0D6, .ms 13 6 0x89AB), (32, 0x89AB4AD4, .msim 13 0x89AB), (16, 0xC5D6, .mr 13 6),
      (16, 0x1AD6, .mb 14 0xD6), (16, 0x4266, .mbx 14 6), (32, 0x89ABC4D6, .m 13 6 0x89AB),
      (32, 0x89AB4AD3, .mim 13 0x89AB), (16, 0xC7D6, .dmr 13 6), (32, 0x89ABC6D6, .dm 13 6 0x89AB),
      (16, 0xD1D6, .dvr 13 6), (16, 0xD2D6, .disp 13 7), (16, 0xD3D6, .disn 13 7),
      (32, 0x89ABD0D6, .dv 13 6 0x89AB), (32, 0x89AB4AD6, .dvim 13 0x89AB), (16, 0xD5D6, .dr 13 6),
      (16, 0x1ED6, .db 14 0xD6), (16, 0x4276, .dbx 14 6)] :
      List (Nat × Nat × Instr)).all reads = true := by decide

theorem test_decode_int_muldiv_2 :
    ([(32, 0x89ABD4D6, .d 13 6 0x89AB), (32, 0x89AB4AD5, .dim 13 0x89AB), (16, 0xD7D6, .ddr 13 6),
      (32, 0x89ABD6D6, .dd 13 6 0x89AB)] :
      List (Nat × Nat × Instr)).all reads = true := by decide

theorem test_decode_float_1 :
    ([(16, 0xA9D6, .far 13 6), (16, 0x22D6, .fab 14 0xD6), (16, 0x4286, .fabx 14 6),
      (32, 0x89ABA8D6, .fa 13 6 0x89AB), (16, 0xABD6, .efar 13 6), (32, 0x89ABAAD6, .efa 13 6 0x89AB),
      (16, 0xB9D6, .fsr 13 6), (16, 0x26D6, .fsb 14 0xD6), (16, 0x4296, .fsbx 14 6),
      (32, 0x89ABB8D6, .fs 13 6 0x89AB), (16, 0xBBD6, .efsr 13 6), (32, 0x89ABBAD6, .efs 13 6 0x89AB),
      (16, 0xACD6, .fabs 13 6), (16, 0xBCD6, .fneg 13 6), (16, 0xC9D6, .fmr 13 6), (16, 0x2AD6, .fmb 14 0xD6),
      (16, 0x42A6, .fmbx 14 6), (32, 0x89ABC8D6, .fm 13 6 0x89AB), (16, 0xCBD6, .efmr 13 6),
      (32, 0x89ABCAD6, .efm 13 6 0x89AB)] :
      List (Nat × Nat × Instr)).all reads = true := by decide

theorem test_decode_float_2 :
    ([(16, 0xD9D6, .fdr 13 6), (16, 0x2ED6, .fdb 14 0xD6), (16, 0x42B6, .fdbx 14 6),
      (32, 0x89ABD8D6, .fd 13 6 0x89AB), (16, 0xDBD6, .efdr 13 6), (32, 0x89ABDAD6, .efd 13 6 0x89AB),
      (16, 0xE8D6, .fix 13 6), (16, 0xE9D6, .flt 13 6), (16, 0xEAD6, .efix 13 6), (16, 0xEBD6, .eflt 13 6),
      (16, 0xF9D6, .fcr 13 6), (16, 0x3ED6, .fcb 14 0xD6), (16, 0x42D6, .fcbx 14 6),
      (32, 0x89ABF8D6, .fc 13 6 0x89AB), (16, 0xFBD6, .efcr 13 6), (32, 0x89ABFAD6, .efc 13 6 0x89AB)] :
      List (Nat × Nat × Instr)).all reads = true := by decide

theorem test_decode_logic_compare_misc_1 :
    ([(16, 0xE1D6, .orr 13 6), (16, 0x32D6, .orb 14 0xD6), (16, 0x42F6, .orbx 14 6),
      (32, 0x89ABE0D6, .or 13 6 0x89AB), (32, 0x89AB4AD8, .orim 13 0x89AB), (16, 0xE3D6, .andr 13 6),
      (16, 0x36D6, .andb 14 0xD6), (16, 0x42E6, .andx 14 6), (32, 0x89ABE2D6, .and 13 6 0x89AB),
      (32, 0x89AB4AD7, .andm 13 0x89AB), (16, 0xE5D6, .xorr 13 6), (32, 0x89ABE4D6, .xor 13 6 0x89AB),
      (32, 0x89AB4AD9, .xorm 13 0x89AB), (16, 0xE7D6, .nr 13 6), (32, 0x89ABE6D6, .n 13 6 0x89AB),
      (32, 0x89AB4ADB, .nim 13 0x89AB), (16, 0xECD0, .xbr 13), (16, 0xEDD6, .xwr 13 6), (16, 0xF1D6, .cr 13 6),
      (16, 0x3AD6, .cb 14 0xD6)] :
      List (Nat × Nat × Instr)).all reads = true := by decide

theorem test_decode_logic_compare_misc_2 :
    ([(16, 0x42C6, .cbx 14 6), (16, 0xF2D6, .cisp 13 7), (16, 0xF3D6, .cisn 13 7),
      (32, 0x89ABF0D6, .c 13 6 0x89AB), (32, 0x89AB4ADA, .cim 13 0x89AB), (32, 0x89ABF4D6, .cbl 13 6 0x89AB),
      (16, 0xF7D6, .dcr 13 6), (32, 0x89ABF6D6, .dc 13 6 0x89AB), (16, 0xFF00, .nop), (16, 0xFFFF, .bpt),
      (16, 0x4FD6, .builtin 0xD6)] :
      List (Nat × Nat × Instr)).all reads = true := by decide

/-- Undefined first words are refused (30_encoding.md R195, R196). -/
theorem test_decode_undefined :
    ([0x4400, 0x4A00, 0x4A0C, 0x5B00, 0x7710, 0x7D10, 0x7F01, 0xEC01, 0xFF01, 0xFE00] : List Nat).all
      (fun w => decodeTableWord 32 w == none) = true := by decide

/-! ### Single steps -/

/-- Registers set one after the other. -/
def setRegs (s : State) : List (Nat × Word) → State
  | [] => s
  | (r, v) :: rest => setRegs (s.setReg (BitVec.ofNat 4 r) v) rest

/-- Words of memory set one after the other. -/
def setMem (s : State) : List (Nat × Word) → State
  | [] => s
  | (a, v) :: rest => setMem (s.physWrite a v) rest

/-- The reset state with the words of an instruction at 0100, IC there, and some registers and words set. -/
def at100 (ws : List Word) (regs mem : List (Nat × Word)) : State :=
  setMem (setRegs { State.reset with ic := 0x0100 } regs)
    (mem ++ (List.range ws.length).map fun k => (0x100 + k, ws.getD k 0))

/-- The step answers a next state with this property. -/
def leads (s : State) (p : State → Bool) : Bool :=
  match step s with
  | .next t => p t
  | _ => false

/-- The word at a physical address. -/
def word (t : State) (a : Nat) : Word := Memory.readWord t.mem a

theorem test_xio_io6 :
    leads { at100 [0x4810, 0x2005] [(1, 0x0800)] [] with pi := 0x0100 }
      (fun t => t.pi == 0x0900 && t.cs == 0 && t.ic == 0x0102) = true := by decide
theorem test_xio_io8 :
    leads (at100 [0x4810, 0x200E] [(1, 0x0003)] [])
      (fun t => t.pi == 0x4000 && t.ft == 0x0010 && t.sw == 0x0003) = true := by decide
theorem test_xio_io13 :
    leads { at100 [0x4810, 0x2000] [(1, 0x00FF)] [] with sw := 0x0030 }
      (fun t => t.pi == 0x4000 && t.ft == 0x0020 && t.cs == 0) = true := by decide
theorem test_xio_io14 :
    leads (at100 [0x4810, 0x2011] [(1, 0x1234)] [])
      (fun t => t.pi == 0x4000 && t.ft == 0x0400 && t.cs == 0) = true := by decide
theorem test_vio_vio3 :
    leads (at100 [0x4910, 0x0300] [(1, 0x0006)] [(0x0300, 0x2000), (0x0301, 0xE000), (0x0302, 0x1111), (0x0303,
      0x2222), (0x0304, 0x3333)])
      (fun t => t.pi == 0x4000 && t.ft == 0x0400 && t.mask == 0x1111) = true := by decide
theorem test_sbr_b2 :
    leads (at100 [0x51F1] [(1, 0x8000)] [])
      (fun t => t.reg 1 == 0x8001 && t.cs == 0 && t.ic == 0x0101) = true := by decide
theorem test_sb_b4 :
    leads (at100 [0x5032, 0x01F0] [(2, 0x0010)] [(0x0200, 0xFFFF)])
      (fun t => t.cs == 0 && t.ic == 0x0102) = true := by decide
theorem test_tbr_b10 :
    leads (at100 [0x5711] [(1, 0x4000)] [])
      (fun t => t.cs == 4 && t.ic == 0x0101) = true := by decide
theorem test_svbr_b19 :
    leads (at100 [0x5A21] [(2, 0xFFF3), (1, 0x0000)] [])
      (fun t => t.reg 1 == 0x1000 && t.cs == 0 && t.ic == 0x0101) = true := by decide
theorem test_sra_sh12 :
    leads (at100 [0x62F5] [(5, 0x7FFF)] [])
      (fun t => t.reg 5 == 0x0000 && t.cs == 2 && t.ic == 0x0101) = true := by decide
theorem test_dsra_sh25 :
    leads (at100 [0x67F4] [(4, 0x8000), (5, 0x0000)] [])
      (fun t => t.reg 4 == 0xFFFF && t.reg 5 == 0x8000 && t.cs == 1) = true := by decide
theorem test_dslc_sh28 :
    leads (at100 [0x68F4] [(4, 0x1234), (5, 0x5678)] [])
      (fun t => t.reg 4 == 0x5678 && t.reg 5 == 0x1234 && t.cs == 4) = true := by decide
theorem test_slr_sr4 :
    leads (at100 [0x6A12] [(1, 0x1234), (2, 0x0010)] [])
      (fun t => t.reg 1 == 0x0000 && t.cs == 2 && t.ic == 0x0101) = true := by decide
theorem test_sar_sr16 :
    leads (at100 [0x6B12] [(1, 0x0000), (2, 0x0010)] [])
      (fun t => t.reg 1 == 0x0000 && t.cs == 2 && t.ic == 0x0101) = true := by decide
theorem test_dsar_sr33 :
    leads (at100 [0x6E02] [(0, 0xFFFF), (1, 0x0000), (2, 0x000F)] [])
      (fun t => t.reg 0 == 0x8000 && t.reg 1 == 0x0000 && t.cs == 1) = true := by decide
theorem test_dscr_sr37 :
    leads (at100 [0x6F02] [(0, 0x1234), (1, 0x5678), (2, 0xFFF8)] [])
      (fun t => t.reg 0 == 0x7812 && t.reg 1 == 0x3456 && t.cs == 4) = true := by decide
theorem test_jc_j4 :
    leads (at100 [0x70F0, 0x0300] [] [])
      (fun t => t.cs == 0 && t.ic == 0x0300) = true := by decide
theorem test_jci_j10 :
    leads { at100 [0x7110, 0x0200] [] [(0x0200, 0x0345)] with sw := 0x1000 }
      (fun t => t.cs == 1 && t.ic == 0x0345) = true := by decide
theorem test_soj_j17 :
    leads (at100 [0x7310, 0x0300] [(1, 0x8000)] [])
      (fun t => t.reg 1 == 0x7FFF && t.cs == 4 && t.ic == 0x0300) = true := by decide
theorem test_br_j21 :
    leads (at100 [0x747F] [] [])
      (fun t => t.cs == 0 && t.ic == 0x017F) = true := by decide
theorem test_lst_st6 :
    leads { at100 [0x7D00, 0x0200] [] [(0x0200, 0x0000), (0x0201, 0x0000), (0x0202, 0x0456)] with sw := 0x0010 }
      (fun t => t.pi == 0x4000 && t.ft == 0x0020 && t.cs == 0) = true := by decide
theorem test_sjs_st10 :
    leads (at100 [0x7EF0, 0x0300] [(15, 0x0400)] [])
      (fun t => t.reg 15 == 0x03FF && word t 0x03FF == 0x0102 && t.cs == 0) = true := by decide
theorem test_urs_st11 :
    leads (at100 [0x7FF0] [(15, 0x03FF)] [(0x03FF, 0x0102)])
      (fun t => t.reg 15 == 0x0400 && t.cs == 0 && t.ic == 0x0102) = true := by decide
theorem test_lb_l6 :
    leads (at100 [0x0301] [(15, 0xFFFF)] [(0x0000, 0x1234)])
      (fun t => t.reg 2 == 0x1234 && t.cs == 4 && t.ic == 0x0101) = true := by decide
theorem test_lisn_l11 :
    leads (at100 [0x8310] [] [])
      (fun t => t.reg 1 == 0xFFFF && t.cs == 1 && t.ic == 0x0101) = true := by decide
theorem test_dlr_l19 :
    leads (at100 [0x8710] [(0, 0x1111), (1, 0x2222)] [])
      (fun t => t.reg 1 == 0x1111 && t.reg 2 == 0x2222 && t.cs == 4) = true := by decide
theorem test_lm_l24 :
    leads (at100 [0x8900, 0x0200] [] [(0x0200, 0xAAAA)])
      (fun t => t.reg 0 == 0xAAAA && t.cs == 0 && t.ic == 0x0102) = true := by decide
theorem test_efl_l26 :
    leads (at100 [0x8A10, 0x0200] [] [(0x0200, 0x0000), (0x0201, 0x0005), (0x0202, 0x0000)])
      (fun t => t.reg 1 == 0x0000 && t.reg 2 == 0x0005 && t.reg 3 == 0x0000) = true := by decide
theorem test_lub_l27 :
    leads (at100 [0x8B10, 0x0200] [(1, 0xFF00)] [(0x0200, 0x12CD)])
      (fun t => t.reg 1 == 0xFF12 && t.cs == 1 && t.ic == 0x0102) = true := by decide
theorem test_popm_l31 :
    leads (at100 [0x8F13] [(15, 0x03FD)] [(0x03FD, 0x1111), (0x03FE, 0x2222), (0x03FF, 0x3333)])
      (fun t => t.reg 1 == 0x1111 && t.reg 2 == 0x2222 && t.reg 3 == 0x3333) = true := by decide
theorem test_popm_l33 :
    leads (at100 [0x8F22] [(15, 0x03FF)] [(0x03FF, 0x0077)])
      (fun t => t.reg 2 == 0x0077 && t.reg 15 == 0x0400 && t.cs == 0) = true := by decide
theorem test_st_s2 :
    leads (at100 [0x9011, 0x0200] [(1, 0x0010)] [])
      (fun t => word t 0x0210 == 0x0010 && t.cs == 0 && t.ic == 0x0102) = true := by decide
theorem test_dst_s10 :
    leads (at100 [0x96F0, 0xFFFF] [(15, 0xAAAA), (0, 0xBBBB)] [])
      (fun t => word t 0x0000 == 0xBBBB && word t 0xFFFF == 0xAAAA && t.cs == 0) = true := by decide
theorem test_srm_s14 :
    leads (at100 [0x9740, 0x0200] [(4, 0xABCD), (5, 0x0FF0)] [(0x0200, 0x1111)])
      (fun t => word t 0x0200 == 0x1BC1 && t.cs == 0 && t.ic == 0x0102) = true := by decide
theorem test_stm_s16 :
    leads (at100 [0x9920, 0x0200] [(0, 0xAAAA), (1, 0xBBBB), (2, 0xCCCC)] [])
      (fun t => word t 0x0200 == 0xAAAA && word t 0x0201 == 0xBBBB && word t 0x0202 == 0xCCCC) = true := by decide
theorem test_efst_s17 :
    leads (at100 [0x9A10, 0x0200] [(1, 0x4000), (2, 0x0003), (3, 0x0001)] [])
      (fun t => word t 0x0200 == 0x4000 && word t 0x0201 == 0x0003 && word t 0x0202 == 0x0001) = true := by decide
theorem test_stub_s18 :
    leads (at100 [0x9B10, 0x0200] [(1, 0xAB12)] [(0x0200, 0xCDEF)])
      (fun t => word t 0x0200 == 0x12EF && t.cs == 0 && t.ic == 0x0102) = true := by decide
theorem test_pshm_s22 :
    leads (at100 [0x9F13] [(15, 0x0400), (1, 0x1111), (2, 0x2222), (3, 0x3333)] [])
      (fun t => t.reg 15 == 0x03FD && word t 0x03FD == 0x1111 && word t 0x03FE == 0x2222) = true := by decide
theorem test_ar_a5 :
    leads (at100 [0xA112] [(1, 0x8000), (2, 0xFFFF)] [])
      (fun t => t.reg 1 == 0x7FFF && t.pi == 0x0800 && t.cs == 12) = true := by decide
theorem test_sr_su3 :
    leads (at100 [0xB112] [(1, 0x8000), (2, 0x0001)] [])
      (fun t => t.reg 1 == 0x7FFF && t.pi == 0x0800 && t.cs == 12) = true := by decide
theorem test_incm_in4 :
    leads (at100 [0xA3F0, 0x0200] [] [(0x0200, 0x7FF0)])
      (fun t => word t 0x0200 == 0x8000 && t.pi == 0x0800 && t.cs == 1) = true := by decide
theorem test_decm_de4 :
    leads (at100 [0xB340, 0x0200] [] [(0x0200, 0x0007)])
      (fun t => word t 0x0200 == 0x0002 && t.cs == 12 && t.ic == 0x0102) = true := by decide
theorem test_abs_ab5 :
    leads (at100 [0xA412] [(2, 0x8001)] [])
      (fun t => t.reg 1 == 0x7FFF && t.cs == 4 && t.ic == 0x0101) = true := by decide
theorem test_neg_ng5 :
    leads (at100 [0xB412] [(2, 0x7FFF)] [])
      (fun t => t.reg 1 == 0x8001 && t.cs == 1 && t.ic == 0x0101) = true := by decide
theorem test_dar_da4 :
    leads (at100 [0xA702] [(0, 0x8000), (1, 0x0000), (2, 0x8000), (3, 0x0000)] [])
      (fun t => t.reg 0 == 0x0000 && t.reg 1 == 0x0000 && t.pi == 0x0800) = true := by decide
theorem test_dsr_ds4 :
    leads (at100 [0xB702] [(0, 0x7FFF), (1, 0xFFFF), (2, 0xFFFF), (3, 0xFFFF)] [])
      (fun t => t.reg 0 == 0x8000 && t.reg 1 == 0x0000 && t.pi == 0x0800) = true := by decide
theorem test_msr_ms5 :
    leads (at100 [0xC102] [(0, 0x8000), (2, 0xFFFF)] [])
      (fun t => t.reg 0 == 0x8000 && t.pi == 0x0800 && t.cs == 1) = true := by decide
theorem test_mr_m5 :
    leads (at100 [0xC502] [(0, 0x8000), (2, 0x7FFF)] [])
      (fun t => t.reg 0 == 0xC000 && t.reg 1 == 0x8000 && t.cs == 1) = true := by decide
theorem test_dmr_dm3 :
    leads (at100 [0xC702] [(0, 0x0001), (1, 0x0000), (2, 0x0001), (3, 0x0000)] [])
      (fun t => t.reg 0 == 0x0000 && t.reg 1 == 0x0000 && t.pi == 0x0800) = true := by decide
theorem test_dvr_dv5 :
    leads (at100 [0xD102] [(0, 0x8000), (2, 0xFFFF)] [])
      (fun t => t.pi == 0x0800 && t.ic == 0x0101) = true := by decide
theorem test_dr_d5 :
    leads (at100 [0xD502] [(0, 0x3FFF), (1, 0x8000), (2, 0x7FFF)] [])
      (fun t => t.pi == 0x0800 && t.ic == 0x0101) = true := by decide
theorem test_dr_d8 :
    leads (at100 [0xD502] [(0, 0x0000), (1, 0x0001), (2, 0x0000)] [])
      (fun t => t.pi == 0x0800 && t.ic == 0x0101) = true := by decide
theorem test_ddr_dd4 :
    leads (at100 [0xD702] [(0, 0x1234), (1, 0x5678), (2, 0x0000), (3, 0x0000)] [])
      (fun t => t.pi == 0x0800 && t.ic == 0x0101) = true := by decide
theorem test_far_fa6 :
    leads (at100 [0xA904] [(0, 0x7FFF), (1, 0xFF7F), (4, 0x7FFF), (5, 0xFF7F)] [])
      (fun t => t.reg 0 == 0x7FFF && t.reg 1 == 0xFF7F && t.pi == 0x1000) = true := by decide
theorem test_far_fa9 :
    leads (at100 [0xA904] [(0, 0x4000), (1, 0x0001), (4, 0x4000), (5, 0x00EA)] [])
      (fun t => t.reg 0 == 0x4000 && t.reg 1 == 0x0001 && t.cs == 4) = true := by decide
theorem test_fsr_fs4 :
    leads (at100 [0xB904] [(0, 0x7FFF), (1, 0xFF7F), (4, 0x8000), (5, 0x007F)] [])
      (fun t => t.reg 0 == 0x7FFF && t.reg 1 == 0xFF7F && t.pi == 0x1000) = true := by decide
theorem test_efar_ef4 :
    leads (at100 [0xAB04] [(0, 0x4000), (1, 0x0001), (2, 0x0000), (4, 0x8000), (5, 0x0000), (6, 0x0000)] [])
      (fun t => t.reg 0 == 0x0000 && t.reg 1 == 0x0000 && t.reg 2 == 0x0000) = true := by decide
theorem test_efsr_ef7 :
    leads (at100 [0xBB04] [(0, 0x4000), (1, 0x0000), (2, 0x0000), (4, 0x4000), (5, 0x0001), (6, 0x0000)] [])
      (fun t => t.reg 0 == 0x8000 && t.reg 1 == 0x00FF && t.reg 2 == 0x0000) = true := by decide
theorem test_fabs_fb2 :
    leads (at100 [0xAC04] [(4, 0x8000), (5, 0x0005)] [])
      (fun t => t.reg 0 == 0x4000 && t.reg 1 == 0x0006 && t.cs == 4) = true := by decide
theorem test_fneg_fn6 :
    leads (at100 [0xBC04] [(4, 0x0000), (5, 0x0000)] [])
      (fun t => t.reg 0 == 0x0000 && t.reg 1 == 0x0000 && t.cs == 2) = true := by decide
theorem test_fmr_fm4 :
    leads (at100 [0xC904] [(0, 0x0000), (1, 0x0000), (4, 0x7FFF), (5, 0xFF7F)] [])
      (fun t => t.reg 0 == 0x0000 && t.reg 1 == 0x0000 && t.cs == 2) = true := by decide
theorem test_fmr_fm8 :
    leads (at100 [0xC904] [(0, 0x6000), (1, 0x0002), (4, 0x8000), (5, 0x0000)] [])
      (fun t => t.reg 0 == 0xA000 && t.reg 1 == 0x0002 && t.cs == 1) = true := by decide
theorem test_fdr_fd6 :
    leads (at100 [0xD904] [(0, 0x0000), (1, 0x0000), (4, 0x4000), (5, 0x0001)] [])
      (fun t => t.reg 0 == 0x0000 && t.reg 1 == 0x0000 && t.cs == 2) = true := by decide
theorem test_fdr_fd11 :
    leads (at100 [0xD904] [(0, 0x4000), (1, 0x0001), (4, 0x8000), (5, 0x0000)] [])
      (fun t => t.reg 0 == 0x8000 && t.reg 1 == 0x0000 && t.cs == 1) = true := by decide
theorem test_flt_fl3 :
    leads (at100 [0xE904] [(4, 0x8000), (0, 0x8123), (1, 0x4567)] [])
      (fun t => t.reg 0 == 0x8000 && t.reg 1 == 0x000F && t.cs == 1) = true := by decide
theorem test_fix_fx5 :
    leads (at100 [0xE804] [(4, 0x8000), (5, 0x000F), (0, 0x8123), (1, 0x4567)] [])
      (fun t => t.reg 0 == 0x8000 && t.cs == 1 && t.ic == 0x0101) = true := by decide
theorem test_fix_fx12 :
    leads (at100 [0xE804] [(4, 0x9000), (5, 0x0002), (0, 0x8123), (1, 0x4567)] [])
      (fun t => t.reg 0 == 0xFFFD && t.cs == 1 && t.ic == 0x0101) = true := by decide
theorem test_eflt_el4 :
    leads (at100 [0xEB04] [(4, 0x7FFF), (5, 0xFFFF), (0, 0x8123), (1, 0x4567)] [])
      (fun t => t.reg 0 == 0x7FFF && t.reg 1 == 0xFF1F && t.reg 2 == 0xFF00) = true := by decide
theorem test_efix_ex4 :
    leads (at100 [0xEA04] [(4, 0x4000), (5, 0x0020), (6, 0x0000), (0, 0x8123), (1, 0x4567)] [])
      (fun t => t.pi == 0x0800 && t.cs == 1 && t.ic == 0x0101) = true := by decide
theorem test_fcr_fc4 :
    leads (at100 [0xF904] [(0, 0x7FFF), (1, 0xFF7F), (4, 0x8000), (5, 0x007F)] [])
      (fun t => t.cs == 4 && t.ic == 0x0101) = true := by decide
theorem test_efcr_fc6e :
    leads (at100 [0xFB04] [(0, 0x0000), (1, 0x0000), (2, 0x0000), (4, 0x4000), (5, 0x0080), (6, 0x0000)] [])
      (fun t => t.cs == 1 && t.ic == 0x0101) = true := by decide
theorem test_orr_lg2 :
    leads { at100 [0xE112] [(1, 0x0000), (2, 0x0000)] [] with sw := 0x8000 }
      (fun t => t.cs == 2 && t.ic == 0x0101) = true := by decide
theorem test_xorm_lg14 :
    leads (at100 [0x4A19, 0xFFFF] [(1, 0x00FF)] [])
      (fun t => t.reg 1 == 0xFF00 && t.cs == 1 && t.ic == 0x0102) = true := by decide
theorem test_nr_lg16 :
    leads (at100 [0xE711] [(1, 0x00FF)] [])
      (fun t => t.reg 1 == 0xFF00 && t.cs == 1 && t.ic == 0x0101) = true := by decide
theorem test_xbr_lg19 :
    leads (at100 [0xEC10] [(1, 0x1234)] [])
      (fun t => t.reg 1 == 0x3412 && t.cs == 4 && t.ic == 0x0101) = true := by decide
theorem test_xwr_lg22 :
    leads (at100 [0xED12] [(1, 0x0001), (2, 0x8000)] [])
      (fun t => t.reg 1 == 0x8000 && t.reg 2 == 0x0001 && t.cs == 1) = true := by decide
theorem test_cisn_c5 :
    leads (at100 [0xF310] [(1, 0xFFFE)] [])
      (fun t => t.cs == 1 && t.ic == 0x0101) = true := by decide
theorem test_cbl_c10 :
    leads (at100 [0xF410, 0x0200] [(1, 0xFFFA)] [(0x0200, 0xFFFB), (0x0201, 0x0005)])
      (fun t => t.cs == 1 && t.ic == 0x0102) = true := by decide
theorem test_cbl_c13 :
    leads (at100 [0xF410, 0x0200] [(1, 0x0006)] [(0x0200, 0xFFFB), (0x0201, 0x0005)])
      (fun t => t.cs == 4 && t.ic == 0x0102) = true := by decide
theorem test_dcr_c16 :
    leads (at100 [0xF724] [(2, 0x0000), (3, 0xFFFF), (4, 0x0000), (5, 0x0001)] [])
      (fun t => t.cs == 4 && t.ic == 0x0101) = true := by decide
theorem test_bpt_x2 :
    leads (at100 [0xFFFF] [] [])
      (fun t => t.cs == 0 && t.ic == 0x0101) = true := by decide
theorem test_undefined_x5 :
    leads (at100 [0x5B00] [] [])
      (fun t => t.pi == 0x4000 && t.ft == 0x0040 && t.cs == 0) = true := by decide

/-- The word placed for the host runs as the first instruction after reset. -/
theorem test_first_step :
    leads (State.reset.withFetchWord 32 0x12348510) (fun t => t.reg 1 == 0x1234 && t.ic == 2) = true := by decide

/-- A DMA store between the two words of a DL shows in the second only (20_memory.md R145, D5). -/
theorem test_dl_parted :
    (let s := { at100 [0x8610, 0x0200] [] [(0x0200, 1), (0x0201, 2)] with
       cfg := { defaultConfig with hasDma := true }
       dev := { Devices.reset with dmaEn := true }
       dma := ⟨[[], [], [], [⟨.physical 0x0200, .write 0xAAAA⟩, ⟨.physical 0x0201, .write 0xBBBB⟩]], []⟩ }
     leads s (fun t => t.reg 1 == 1 && t.reg 2 == 0xBBBB && word t 0x0200 == 0xAAAA)) = true := by decide

/-- The last word of a MOV leaves IC past it (V-MV4); an interrupt taken right then saves the address of the MOV
(45_store.md R496). -/
theorem test_mov_ends :
    (let s := at100 [0x9346] [(4, 0x0302), (5, 1), (6, 0x0202)] [(0x0202, 0x000C), (0x2A, 0x0400), (0x2B, 0x0500),
      (0x0502, 0x0630)]
     leads s (fun t => t.ic == 0x0101 && t.reg 5 == 0 && t.reg 4 == 0x0303 && word t 0x0302 == 0x000C) &&
       leads { s with pi := 0x0400 } (fun t => t.ic == 0x0630 && word t 0x0402 == 0x0100)) = true := by decide

/-- TSB whose read the ROM answers and whose write finds no memory: FT bit 8, CS as it was (41_bit.md R335, R806). -/
theorem test_tsb_rom :
    (let s := { at100 [0x5900, 0x0000] [] [] with
       cfg := { defaultConfig with surom := some 0, physRanges := [(0x100, 2)] }, sw := 0x8000 }
     leads s (fun t => t.ft == 0x0080 && t.cs == 8)) = true := by decide

/-- A channel that requests while IOIC is held shows once RIC1 has read the number held (10_state.md R53). -/
theorem test_ioic_next :
    (let s := { at100 [0x4810, 0xA001, 0x4820, 0xA001] [] [] with
       cfg := { defaultConfig with hasIoic := true }
       dev := { Devices.reset with ioic1 := 3, ioicHold1 := true }
       schedule := [[]] }
     leads (s.applyEvent (.channel .level1 9)) (fun t => t.reg 1 == 3 &&
       leads t (fun u => u.reg 2 == 9))) = true := by decide

/-- An interrupt that arrives between a sequence and the first instruction of its handler is taken there
(60_exceptions.md
R812, R815): it saves the handler's entry. -/
theorem test_interrupt_between_sequences :
    leads { at100 [0xFF00] [] [(0x28, 0x0400), (0x29, 0x0500), (0x0502, 0x0630), (0x20, 0x0410), (0x21, 0x0510),
        (0x0512, 0x0650)] with pi := 0x0800, mask := 0x0800, ien := true, schedule := [[], [.interrupt 0]] }
      (fun t => t.ic == 0x0650 && word t 0x0402 == 0x0101 && word t 0x0412 == 0x0630 && t.pi == 0 &&
        t.schedule == []) = true := by decide

/-- A modelled run ends at a fault of an instruction, at a BPT with a console, and at its budget
(70_reset_and_hazards.md
R891). -/
theorem test_run_ends :
    (modelledRun 3 (at100 [0xFF00, 0x5B00] [] [])).1 = .faulted .illegalInstruction ∧
      (modelledRun 3 { at100 [0xFF00, 0xFFFF] [] [] with
        cfg := { defaultConfig with hasConsole := true, consoleConnected := true } }).1 = .breakpoint ∧
      (modelledRun 3 (at100 [0xFF00] [] [])).1 = .budget := by decide

/-- The run ends at the first fault, PI bit 1 still set, where the machine error sequence would fault too: at the fault
of
the instruction, and at that of the sequence of interrupt 4 (60_exceptions.md R806, R816, 70_reset_and_hazards.md
R891). -/
theorem test_run_first_fault :
    (let r := modelledRun 1 { at100 [0x5B00] [] [(0x23, 0x0500), (0x0501, 1)] with mask := 0x4000 }
     r.1 = .faulted .illegalInstruction ∧ r.2.ft = 0x0040 ∧ r.2.pi = 0x4000) ∧
      (let r := modelledRun 1 { at100 [0xFF00] [] [(0x29, 0x0500), (0x0501, 1), (0x23, 0x0700)] with
         cfg := { defaultConfig with physRanges := [(0, 0x0600)] }, mask := 0x4800, ien := true, pi := 0x0800 }
       r.1 = .faulted .addressState ∧ r.2.ft = 0x0010 ∧ r.2.pi = 0x4800) := by decide

/-! ### States that meet the hypotheses of the statements -/

/-- Every option implemented. -/
def fullConfig : Config :=
  { defaultConfig with
    mmu := some ⟨.sixteen, true⟩, hasMfsr := true, hasParity := true, hasMprot := true, surom := some 15,
      hasIoic := true
    hasDma := true, hasConsole := true, hasNpu := true, hasGo := true, hasPio := true, consoleConnected := true }

/-- The reset state of a machine with every option. -/
def full : State := { State.reset with cfg := fullConfig }

/-- The reset state of a machine with no memory. -/
def bare : State := { State.reset with cfg := { defaultConfig with physRanges := [] } }

/-- A machine with DMA, the word ABCD stored at 0 between the next two word references. -/
def parted : State :=
  { State.reset with
    cfg := { defaultConfig with hasDma := true }
    dev := { Devices.reset with dmaEn := true }
    dma := ⟨[[], [⟨.physical 0, .write 0xABCD⟩]], []⟩ }

/-- A machine with one page group only. -/
def group0 : State := { State.reset with cfg := { fullConfig with mmu := some ⟨.two, true⟩ }, sw := 0x0002 }

/-- The reset state in a user mode. -/
def user : State := { State.reset with sw := 0x0010 }

/-- The reset state with some words of memory. -/
def loaded (mem : List (Nat × Word)) : State := setMem State.reset mem

/-- The statements with operands in memory: one, two and three words and a pointer, at both ends of the address space,
each in its turn, and a double word that a DMA store parts. -/
theorem witness_operands :
    (let s := State.reset
     s.read (s.daLong 0xFFFF 0) = .ok 0 ∧ (s.turns 1).read (s.daLong 0xFFFF 0 + 1) = .ok 0 ∧
       (s.turns 2).read (s.daLong 0xFFFF 0 + 2) = .ok 0 ∧ s.read (s.daBase 15 0xFF) = .ok 0 ∧
       (s.turns 1).read (s.daBase 15 0xFF + 1) = .ok 0 ∧ s.read (s.daIndexed 12 1) = .ok 0 ∧
       (s.turns 1).read (s.daIndexed 12 1 + 1) = .ok 0 ∧ (s.turns 1).read 0 = .ok 0 ∧
         (s.turns 2).read (0 + 1) = .ok 0) ∧
      parted.read (parted.daLong 0xFFFF 0) = .ok 0 ∧ (parted.turns 1).read (parted.daLong 0xFFFF 0 + 1) = .ok 0xABCD :=
  ⟨⟨rfl, rfl, rfl, rfl, rfl, rfl, rfl, rfl, rfl⟩, rfl, rfl⟩

/-- MemoryBitWrites, SingleStores, DoubleStores, PartialStores: canonical memory, an operand and a writable word. -/
theorem witness_stores :
    State.reset.mem.wf = true ∧ State.reset.read (State.reset.daLong 0xFFFF 0) = .ok 0 ∧
      State.reset.writable (State.reset.daLong 0xFFFF 0) 65535 ∧
        State.reset.writable (State.reset.daLong 0xFFFF 0 + 1) 0 ∧
      State.reset.writable (State.reset.daLong 0xFFFF 0 + 2) 1 ∧ State.reset.writable (State.reset.daBase 15 0xFF) 255 ∧
      State.reset.writable (State.reset.daBase 15 0xFF + 1) 256 ∧ State.reset.writable (State.reset.daIndexed 12 1) 0 ∧
      State.reset.writable (State.reset.daIndexed 12 1 + 1) 1 ∧ State.reset.writable 0 0 ∧
        State.reset.writable (0 + 1) 1 ∧
      (State.reset.turns 1).read 0 = .ok 0 :=
  ⟨rfl, rfl, ⟨rfl, rfl⟩, ⟨rfl, rfl⟩, ⟨rfl, rfl⟩, ⟨rfl, rfl⟩, ⟨rfl, rfl⟩, ⟨rfl, rfl⟩, ⟨rfl, rfl⟩, ⟨rfl, rfl⟩, ⟨rfl,
    rfl⟩, rfl⟩

/-- CountedShifts, SingleLoads, IntegerCompares: the counts at both ends. -/
theorem witness_counts : (1 ≤ 1 ∧ 1 ≤ 16) ∧ 1 ≤ 16 ∧ 16 ≤ 16 := by decide

/-- JumpsAndLinkage: a mask that takes the jump by a bit of CS, one that does not, the pointer of JCI, the stack words
of
SJS and URS. -/
theorem witness_jumps :
    (∃ k, k < 4 ∧ (0x1#4).getLsbD k = true ∧ ({ State.reset with sw := 0x1000 } : State).sw.getLsbD (12 + k) = true) ∧
      (¬((0x0#4) = 0x7#4 ∨ (0x0#4) = 0xF#4 ∨
        ∃ k, k < 4 ∧ (0x0#4).getLsbD k = true ∧ State.reset.sw.getLsbD (12 + k) = true)) ∧
      State.reset.read (0xFFFF + 0#16) = .ok 0 ∧ State.reset.mem.wf = true ∧
      State.reset.writable (State.reset.reg 15 - 1) 65535 ∧ State.reset.read (State.reset.reg 15) = .ok 0 :=
  ⟨⟨0, by decide, rfl, rfl⟩, by decide, rfl, rfl, ⟨rfl, rfl⟩, rfl⟩

/-- MultipleLoads: LM of R0 to R15, a fault at the first and at the last word, POPM of the range R14, R15, R0. -/
theorem witness_multiple_loads :
    (∀ k, k ≤ (15#4).toNat → (State.reset.turns k).read (State.reset.daLong 0xFFFF 0 + BitVec.ofNat 16 k) = .ok 0) ∧
      (∃ f, (bare.turns 0).read (bare.daLong 0xFFFF 0 + BitVec.ofNat 16 0) = .error (.fault f)) ∧
      (let s : State := { State.reset with cfg := { defaultConfig with physRanges := [(0, 15)] } }
       (∀ k, k < 15 → (s.turns k).read (s.daLong 0 0 + BitVec.ofNat 16 k) = .ok 0) ∧
         ∃ f, (s.turns 15).read (s.daLong 0 0 + BitVec.ofNat 16 15) = .error (.fault f)) ∧
      ∀ k, k ≤ ((0 : Reg) - 14).toNat → (14 : Reg) + BitVec.ofNat 4 k ≠ 15#4 →
        (State.reset.turns (if (15#4 - (14 : Reg)).toNat < k then k - 1 else k)).read
          (State.reset.reg 15 + BitVec.ofNat 16 k) = .ok 0 := by
  refine ⟨?_, ⟨_, rfl⟩, ⟨?_, _, rfl⟩, ?_⟩
  · intro k hk
    have h : k ≤ 15 := hk
    interval_cases k <;> rfl
  · intro k hk
    interval_cases k <;> rfl
  · intro k hk _
    have h : k ≤ 2 := hk
    interval_cases k <;> rfl

/-- MultipleLoads: POPM of the range R14, R15, R0 with a fault at its first and at its last word. -/
theorem witness_pop_fault :
    let before (k : Nat) : Nat := if (15#4 - (14 : Reg)).toNat < k then k - 1 else k
    (let s : State := { State.reset with cfg := { defaultConfig with physRanges := [(0, 1)] } }
     (∀ k, k < 2 → (14 : Reg) + BitVec.ofNat 4 k ≠ 15#4 →
       (s.turns (before k)).read (s.reg 15 + BitVec.ofNat 16 k) = .ok 0) ∧
       (14 : Reg) + BitVec.ofNat 4 2 ≠ 15#4 ∧
         ∃ f, (s.turns (before 2)).read (s.reg 15 + BitVec.ofNat 16 2) = .error (.fault f)) ∧
      ∃ f, (bare.turns (before 0)).read (bare.reg 15 + BitVec.ofNat 16 0) = .error (.fault f) := by
  refine ⟨⟨?_, by decide, _, rfl⟩, _, rfl⟩
  intro k hk h
  interval_cases k
  · rfl
  · exact absurd rfl h

/-- MultipleStores: STM of R0 to R15 across the end of memory, PSHM of the range R14, R15, R0 down from FFFF. -/
theorem witness_multiple_stores :
    State.reset.mem.wf = true ∧
      (∀ k, k ≤ (15#4).toNat →
        State.reset.writable (State.reset.daLong 0xFFFF 0 + BitVec.ofNat 16 k) ((65535 + k) % 65536)) ∧
      ∀ k, k ≤ ((0 : Reg) - 14).toNat →
        State.reset.writable (State.reset.reg 15 - BitVec.ofNat 16 (k + 1)) (65535 - k) := by
  refine ⟨rfl, ?_, ?_⟩
  · intro k hk
    have h : k ≤ 15 := hk
    interval_cases k <;> exact ⟨rfl, rfl⟩
  · intro k hk
    have h : k ≤ 2 := hk
    interval_cases k <;> exact ⟨rfl, rfl⟩

/-- MoveMultiple: a count of zero, a count of one with three registers, and each of the two clashes. -/
theorem witness_move :
    State.reset.reg (1 + 1) = 0#16 ∧
      (let s := State.reset.setReg 2 1
       s.mem.wf = true ∧ s.reg (1 + 1) ≠ 0#16 ∧ s.read (s.reg 3) = .ok 0 ∧ s.writable (s.reg 1) 0 ∧ (3 : Reg) ≠ 1 ∧
         (3 : Reg) ≠ 1 + 1 ∧ s.read (s.reg 1) = .ok 0 ∧ s.read (s.reg (1 + 1)) = .ok 0) :=
  ⟨rfl, rfl, by decide, rfl, ⟨rfl, rfl⟩, by decide, by decide, rfl, rfl⟩

/-- MemoryIncrements: N of 1 and of 16 at the last word of memory. -/
theorem witness_increments :
    State.reset.mem.wf = true ∧ (1 ≤ 1 ∧ 1 ≤ 16) ∧ 16 ≤ 16 ∧ State.reset.read (State.reset.daLong 0xFFFF 0) = .ok 0 ∧
      State.reset.writable (State.reset.daLong 0xFFFF 0) 65535 :=
  ⟨rfl, by decide, by decide, rfl, rfl, rfl⟩

/-- SingleDivides: quotients at both ends of the range, one past it, a zero divisor. -/
theorem witness_single_divides :
    Divides (-32768) (1#16).toInt (-32768) 0 ∧ Divides 32767 (1#16).toInt 32767 0 ∧
      (Divides (-32768) (0xFFFF#16).toInt 32768 0 ∧ 32767 < (32768 : Int)) ∧ Divides (-7) (2#16).toInt (-3) (-1) ∧
      State.reset.reg 1 = 0#16 ∧ State.reset.read (State.reset.daLong 0xFFFF 0) = .ok 0 := by
  refine ⟨?_, ?_, ⟨?_, by decide⟩, ?_, rfl, rfl⟩ <;> (unfold Divides; decide)

/-- DoubleDivides: the largest quotient, a zero divisor, the one quotient that does not fit. -/
theorem witness_double_divides :
    (Divides 2147483647 (1#32).toInt 2147483647 0 ∧ (2147483647 : Int) ≤ 2147483647) ∧
      (State.reset.reg 2 ++ State.reset.reg (2 + 1) : Long) = 0#32 ∧
      (let s := setRegs State.reset [(0, 0x8000), (2, 0xFFFF), (3, 0xFFFF)]
       (s.reg 0 ++ s.reg (0 + 1) : BitVec (16 + 16)).toInt = -2147483648 ∧
         (s.reg 2 ++ s.reg (2 + 1) : Long) = BitVec.allOnes 32) := by
  refine ⟨⟨?_, by decide⟩, rfl, rfl, rfl⟩
  unfold Divides
  decide

/-- FloatArithmetic, ExtendedArithmetic: a machine of each kind of FP. -/
theorem witness_float_models :
    State.reset.cfg.fp = .registerTransfer ∧
      ({ State.reset with cfg := { defaultConfig with fp := .implementation } } : State).cfg.fp = .implementation :=
  ⟨rfl, rfl⟩

/-- FloatArithmetic, FloatCompares: zero, the smallest normalized magnitudes of both signs, and an operand that is
neither. -/
theorem witness_float_operands :
    (unpack24 (State.reset.reg 0 ++ State.reset.reg (0 + 1))).normalOrZero 24 ∧
      (unpack24 (0x4000#16 ++ 0x0000#16)).normalOrZero 24 ∧ (unpack24 (0xBFFF#16 ++ 0xFF00#16)).normalOrZero 24 ∧
      ¬(unpack24 (0x0000#16 ++ 0x0100#16)).normalOrZero 24 ∧ ¬(unpack24 (0xC000#16 ++ 0x0000#16)).normalOrZero 24 := by
  unfold Unpacked.normalOrZero
  decide

/-- ExtendedArithmetic, FloatCompares: the same in extended precision. -/
theorem witness_extended_operands :
    (unpack40 (0x0000#16 ++ 0x0000#16 ++ 0x0000#16 : BitVec (16 + 16 + 16))).normalOrZero 40 ∧
      (unpack40 (0xBFFF#16 ++ 0xFF00#16 ++ 0xFFFF#16 : BitVec (16 + 16 + 16))).normalOrZero 40 ∧
      ¬(unpack40 (0x0000#16 ++ 0x0000#16 ++ 0x0001#16 : BitVec (16 + 16 + 16))).normalOrZero 40 := by
  unfold Unpacked.normalOrZero
  decide

/-- FloatAbsoluteAndNegative: an operand for each clause, at the ends of the exponent. -/
theorem witness_absolute :
    (unpack24 (0x8000#16 ++ 0x007F#16)).normalOrZero 24 ∧ unpack24 (0x8000#16 ++ 0x007F#16) = ⟨-8388608, 127⟩ ∧
      unpack24 (0x8000#16 ++ 0x007E#16) = ⟨-8388608, 126⟩ ∧ unpack24 (0x8000#16 ++ 0x017F#16) = ⟨-8388607, 127⟩ ∧
      unpack24 (0x4000#16 ++ 0x0080#16) = ⟨4194304, -128⟩ ∧ unpack24 (0x4000#16 ++ 0x0081#16) = ⟨4194304, -127⟩ ∧
      (unpack24 (0x4000#16 ++ 0x0080#16)).normalOrZero 24 ∧ ¬(unpack24 (0x0000#16 ++ 0x0100#16)).normalOrZero 24 := by
  unfold Unpacked.normalOrZero
  decide

/-- Conversions: exponents at and past the limits, normalized and not. -/
theorem witness_conversions :
    (let d := unpack24 (0x4000#16 ++ 0x000F#16); d.normalOrZero 24 ∧ d.e ≤ 15) ∧
      (let d := unpack24 (0x4000#16 ++ 0x0010#16); d.normalOrZero 24 ∧ 15 < d.e) ∧
      (let x := unpack40 (0x4000#16 ++ 0x001F#16 ++ 0x0000#16 : BitVec (16 + 16 + 16)); x.normalOrZero 40 ∧ x.e ≤ 31) ∧
      (let x := unpack40 (0x4000#16 ++ 0x0020#16 ++ 0x0000#16 : BitVec (16 + 16 + 16)); x.normalOrZero 40 ∧ 31 < x.e) ∧
      ¬(unpack24 (0x0000#16 ++ 0x0100#16)).normalOrZero 24 ∧
      ¬(unpack40 (0x0000#16 ++ 0x0000#16 ++ 0x0001#16 : BitVec (16 + 16 + 16))).normalOrZero 40 := by
  unfold Unpacked.normalOrZero
  decide

/-- FloatResultsAreNumbers, FloatRounding: two numbers with no exception from any of the four algorithms. -/
theorem witness_float_algorithms :
    (24 = 24 ∨ 24 = 40) ∧ (⟨2 ^ 22, 1⟩ : Unpacked).normalOrZero 24 ∧ (⟨2 ^ 22, 1⟩ : Unpacked).inRange 24 ∧
      (⟨-2 ^ 23, -128⟩ : Unpacked).inRange 24 ∧ (⟨2 ^ 23 - 1, 127⟩ : Unpacked).inRange 24 ∧
      (let a : Unpacked := ⟨2 ^ 22, 1⟩
       (∀ f ∈ [fadd 24, fsub 24, fmul 24, fdiv 24], (f a a).overflow = false ∧ (f a a).underflow = false) ∧ a.e = a.e ∧
         -2 ^ (24 - 1) ≤ a.m - a.m ∧ a.m - a.m < 2 ^ (24 - 1) ∧ a.m ≠ 0) ∧
      (-2 ^ (24 - 1) ≤ (-4194304 : Int) + -4194304 ∧ (-4194304 : Int) + -4194304 < 2 ^ (24 - 1)) := by
  unfold Unpacked.normalOrZero Unpacked.inRange
  decide

/-- FloatResultsAreNumbers: an overflow and an underflow happen. -/
theorem witness_float_exceptions :
    (fadd 24 ⟨2 ^ 22, 127⟩ ⟨2 ^ 22, 127⟩).overflow = true ∧ (fsub 24 ⟨2 ^ 22 + 1, -128⟩ ⟨2 ^ 22,
      -128⟩).underflow = true := by
  decide

/-- LogicInstructions: the word whose bits are the function of the operands' bits. -/
theorem witness_logic : ∀ k, k < 16 →
  (0#16).getLsbD k = xor ((State.reset.reg 1).getLsbD k) ((0#16).getLsbD k) := by decide

/-- MiscInstructions: no console, a console, a function not defined, and one defined whose two words are fetched. -/
theorem witness_misc :
    State.reset.cfg.hasConsole = false ∧ (full.cfg.hasConsole = true ∧ full.cfg.consoleConnected = true) ∧
      State.reset.cfg.builtins.lookup 0xFF = none ∧
      (let s : State := { loaded [(1, 0x1234)] with cfg := { defaultConfig with builtins := [(0xFF, 2)] } }
       let ws : List Word := [0x1234, 0]
       s.cfg.builtins.lookup 0xFF = some 2 ∧ ws.length = 2 ∧
         ∀ k (h : k < ws.length), (s.turns k).fetch (s.ic + 1 + BitVec.ofNat 16 k) = .ok ws[k]) := by
  refine ⟨rfl, ⟨rfl, rfl⟩, rfl, rfl, rfl, ?_⟩
  intro k h
  have h' : k < 2 := h
  interval_cases k <;> rfl

/-- DecodeOfEncode: well-formed instructions at the ends of the checked fields. -/
theorem witness_encode : wellFormed (.lb 12 0) = true ∧ wellFormed (.incm 16 15 0xFFFF) = true ∧
  wellFormed (.sll 1 0) = true :=
  ⟨rfl, rfl, rfl⟩

/-- EncodeOfDecode: words that decode. -/
theorem witness_decode : decodeWords [0x8010, 0xFFFF] = .ok (.l 1 0 0xFFFF, []) := rfl

/-- StepRunsDecoded: two words and one word, in the privileged and in a user mode, and a halted processor. -/
theorem witness_step :
    (let s := at100 [0x8010, 0x0200] [] []
     s.halted = false ∧ s.fetch s.ic = .ok 0x8010 ∧ (s.turns 1).fetch (s.ic + 1) = .ok 0x0200 ∧ s.ps = 0#4 ∧
       decodeWords [0x8010, 0x0200] = .ok (.l 1 0 0x0200, [0x8010, 0x0200].drop (Instr.l 1 0 0x0200).length)) ∧
      ({ at100 [0xFF00] [] [] with sw := 0x0010 }).fetch 0x0100 = .ok 0xFF00 ∧ isPrivilegedWord 0xFF00 = false ∧
      decodeWords [0xFF00, 0] = .ok (.nop, [0xFF00, 0].drop Instr.nop.length) ∧
      ({ State.reset with halted := true } : State).halted = true :=
  ⟨⟨rfl, rfl, rfl, rfl, rfl⟩, rfl, rfl, rfl, rfl⟩

/-- FaultsBeforeExecution: a fetch that faults, one refused, an undefined word, the last first word of each of the four
privileged instructions in a user mode, and a second word that is not there, in either mode. -/
theorem witness_before :
    (∃ f, bare.halted = false ∧ bare.fetch bare.ic = .error (.fault f)) ∧
      group0.fetch group0.ic = .error (.refuse .unimplementedGroup) ∧
      ((loaded [(0, 0x4400)]).fetch 0 = .ok 0x4400 ∧ ∀ w1, decodeWords [0x4400, w1] = .error (.undefinedWord 0x4400)) ∧
      (∀ w ∈ [0x48FF#16, 0x49FF, 0x7C0F, 0x7D0F],
        let s : State := { loaded [(0, w)] with sw := 0x0010 }
        s.fetch s.ic = .ok w ∧ s.ps ≠ 0#4 ∧
          (w.toNat / 256 = 0x48 ∨ w.toNat / 256 = 0x49 ∨
            ((w.toNat / 256 = 0x7C ∨ w.toNat / 256 = 0x7D) ∧ w.toNat / 16 % 16 = 0))) ∧
      (let s : State := { loaded [(0, 0x8010)] with cfg := { defaultConfig with physRanges := [(0, 1)] } }
       s.fetch s.ic = .ok 0x8010 ∧ (∃ w1 i, decodeWords [0x8010, w1] = .ok (i, [])) ∧ s.ps = 0#4 ∧
         ¬(0x8010#16).toNat / 256 = 0x48 ∧ ∃ f, (s.turns 1).fetch (s.ic + 1) = .error (.fault f)) := by
  refine ⟨⟨_, rfl, rfl⟩, rfl, ⟨rfl, fun _ => rfl⟩, ?_, rfl, ⟨0, _, rfl⟩, rfl, by decide, _, rfl⟩
  intro w hw
  simp only [List.mem_cons, List.mem_nil_iff, or_false] at hw
  rcases hw with rfl | rfl | rfl | rfl <;> exact ⟨rfl, by decide, by decide⟩

/-- StepKeepsInv: a sound state that steps. -/
theorem witness_invariant : (at100 [0x9100, 0x0200] [] []).Inv ∧ ∃ t, step (at100 [0x9100,
  0x0200] [] []) = .next t := by
  have page : ∀ i : Fin 256, resetPages[i] &&& 0x0700#16 = 0#16 := by
    intro i
    have h : i.val % 16 < 16 := Nat.mod_lt _ (by decide)
    simp only [resetPages, Fin.getElem_fin, Vector.getElem_mk, List.getElem_toArray, List.getElem_map,
      List.getElem_range,
      resetPage]
    generalize i.val % 16 = k at h
    interval_cases k <;> rfl
  exact ⟨⟨⟨by decide, by decide⟩, ⟨rfl, rfl⟩, by decide, rfl, rfl, fun i => ⟨page i, trivial⟩, fun i => ⟨page i,
    trivial⟩⟩, _, rfl⟩

/-- ControlStateFrame, UserModeIsConfined, PrivilegedInstructionsTrap: instructions that run in a user mode, a BPT that
halts and a built-in function that is not defined among them. -/
theorem witness_user :
    user.ps ≠ 0#4 ∧ (∃ t, exec .nop user = .next t) ∧ (∃ t, exec (.builtin 1) user = .next t) ∧
      user.cfg.builtins.lookup 1 = none ∧ ({ full with sw := 0x0010 } : State).ps ≠ 0#4 ∧
      ∃ t, exec .bpt { full with sw := 0x0010 } = .next t ∧ t.halted = true :=
  ⟨by decide, ⟨_, rfl⟩, ⟨_, rfl⟩, rfl, by decide, _, rfl, rfl⟩

/-- OperandFaultsStop: an operand that is not there, and one whose second or third word is not; a pointer to a word
that is
not there, and to one whose second or third word is not. -/
theorem witness_operand_fault :
    let sized (n : Nat) : State := { State.reset with cfg := { defaultConfig with physRanges := [(0, n)] } }
    ((∃ f, (bare.turns 0).read (bare.daLong 0xFFFF 0) = .error (.fault f)) ∧ bare.ps = 0#4 ∧
        (∃ f, (bare.turns 0).read (bare.daBase 15 0xFF) = .error (.fault f)) ∧
          ∃ f, (bare.turns 0).read (bare.daIndexed 12 1) = .error (.fault f)) ∧
      (let s := sized 1
       s.read (s.daLong 0 0) = .ok 0 ∧ (∃ f, (s.turns 1).read (s.daLong 0 0 + 1) = .error (.fault f)) ∧
         s.read (s.daBase 12 0) = .ok 0 ∧ (∃ f, (s.turns 1).read (s.daBase 12 0 + 1) = .error (.fault f)) ∧
         s.read (s.daIndexed 12 1) = .ok 0 ∧ (∃ f, (s.turns 1).read (s.daIndexed 12 1 + 1) = .error (.fault f)) ∧
         (s.turns 1).read 0 = .ok 0 ∧ ∃ f, (s.turns 2).read (0 + 1) = .error (.fault f)) ∧
      (let s := sized 2
       s.read (s.daLong 0 0) = .ok 0 ∧ (s.turns 1).read (s.daLong 0 0 + 1) = .ok 0 ∧
         (∃ f, (s.turns 2).read (s.daLong 0 0 + 2) = .error (.fault f)) ∧ (s.turns 1).read 0 = .ok 0 ∧
           (s.turns 2).read (0 + 1) = .ok 0 ∧ ∃ f, (s.turns 3).read (0 + 2) = .error (.fault f)) ∧
      (let s := setMem (sized 1) [(0, 5)]
       s.read (s.daLong 0 0) = .ok 5 ∧ ∃ f, (s.turns 1).read 5 = .error (.fault f)) ∧
      let s := setRegs bare [(1, 1)]
      s.reg (0 + 1) ≠ 0#16 ∧ ∃ f, (s.turns 0).read (s.reg 2) = .error (.fault f) :=
  ⟨⟨⟨_, rfl⟩, rfl, ⟨_, rfl⟩, _, rfl⟩, ⟨rfl, ⟨_, rfl⟩, rfl, ⟨_, rfl⟩, rfl, ⟨_, rfl⟩, rfl, _, rfl⟩,
    ⟨rfl, rfl, ⟨_, rfl⟩, rfl, rfl, _, rfl⟩, ⟨rfl, _, rfl⟩, by decide, _, rfl⟩

/-- MemoryLaws: canonical memories, and a cell outside the word written. -/
theorem witness_memory : Memory.wf [] = true ∧ Memory.wf [(0, 1)] = true ∧ (2 : Nat) ≠ 2 * 0 ∧
  (2 : Nat) ≠ 2 * 0 + 1 := by decide

/-- AddressTranslation: without and with expanded memory, an address nothing protects. -/
theorem witness_translation :
    State.reset.cfg.mmu = none ∧ (∃ m, full.cfg.mmu = some m) ∧ full.mapPage .cpu .write 0 (some 0) 0xFFFF = .ok 65535 ∧
      full.ctl.mprotEn = false ∧ full.romOverlay 65535 = false ∧ 65535 ∉ full.ctl.badParity :=
  ⟨rfl, ⟨_, rfl⟩, rfl, rfl, rfl, by decide⟩

/-- PhysicalProtection: the first and the last block, the last word of the ROM, a bad word, and a machine without
expanded
memory at both ends of its physical space and at the first address past it. -/
theorem witness_protection :
    (let s : State := { full with
        ctl := { full.ctl with mpr := Vector.replicate 128 0x8001, mprotEn := true, badParity := [1048575] } }
     s.cfg.hasMprot = true ∧ s.ctl.mprotEn = true ∧ s.cfg.mmu ≠ none ∧
       (∃ h : 0 / 16384 < 128, (s.ctl.mpr[0 / 16384]'h).getLsbD (15 - 0 / 1024 % 16) = true) ∧
       (∃ h : 64 + 1048575 / 16384 < 128,
         (s.ctl.mpr[64 + 1048575 / 16384]'h).getLsbD (15 - 1048575 / 1024 % 16) = true) ∧
       s.cfg.surom = some 15 ∧ s.ctl.suromEn = true ∧ s.cfg.hasParity = true ∧ 1048575 ∈ s.ctl.badParity ∧
       physImplemented s.cfg 1048575 = true ∧ s.romOverlay 1048575 = false) ∧
      State.reset.cfg.mmu = none ∧ 65535 < 65536 ∧ 65536 ≤ 65536 ∧ 65536 < 1048576 :=
  ⟨⟨rfl, rfl, by decide, ⟨by decide, by decide⟩, ⟨by decide, by decide⟩, rfl, rfl, rfl, by decide, rfl, rfl⟩, rfl,
    by decide, by decide, by decide⟩

/-- StatusLoads: three words at the end of memory, with an address state that exists and one that does not, and through
a
pointer. -/
theorem witness_status :
    (let s := State.reset
     s.ps = 0#4 ∧ s.read (s.daLong 0xFFFE 0) = .ok 0 ∧ (s.turns 1).read (s.daLong 0xFFFE 0 + 1) = .ok 0 ∧
       (s.turns 2).read (s.daLong 0xFFFE 0 + 2) = .ok 0 ∧ asLegal s.cfg (asOf 0) = true ∧ (s.turns 1).read 0 = .ok 0 ∧
       (s.turns 2).read (0 + 1) = .ok 0 ∧ (s.turns 3).read (0 + 2) = .ok 0) ∧
      (let s := loaded [(0xFFFF, 1)]
       s.ps = 0#4 ∧ s.read (s.daLong 0xFFFE 0) = .ok 0 ∧ (s.turns 1).read (s.daLong 0xFFFE 0 + 1) = .ok 1 ∧
         (s.turns 2).read (s.daLong 0xFFFE 0 + 2) = .ok 0 ∧ asLegal s.cfg (asOf 1) = false) :=
  ⟨⟨rfl, rfl, rfl, rfl, rfl, rfl, rfl, rfl⟩, rfl, rfl, rfl, rfl, rfl⟩

/-- InterruptSequence: interrupts 0 and 15, entries 0 and 15; `h` is the statement's. -/
theorem witness_sequence :
    ∀ n ∈ [(0 : BitVec 4), 15], ∀ e ∈ [(0 : BitVec 4), 15],
      let s := loaded [(0x20, 0x0100), (0x21, 0x0200), (0x3E, 0x0100), (0x3F, 0x0200)]
      let h : State := { s with dev := { s.dev with
        ioicHold1 := s.dev.ioicHold1 || (s.cfg.hasIoic && n == s.cfg.intIo1)
        ioicHold2 := s.dev.ioicHold2 || (s.cfg.hasIoic && n == s.cfg.intIo2)
        ioicRequests1 := if s.cfg.hasIoic ∧ n = s.cfg.intIo1 ∧ s.dev.ioicHold1 = false
          then s.dev.ioicRequests1.erase s.dev.ioic1 else s.dev.ioicRequests1
        ioicRequests2 := if s.cfg.hasIoic ∧ n = s.cfg.intIo2 ∧ s.dev.ioicHold2 = false
          then s.dev.ioicRequests2.erase s.dev.ioic2 else s.dev.ioicRequests2 } }
      s.mem.wf = true ∧ h.vectorRead (BitVec.ofNat 16 (0x21 + 2 * n.toNat)) = .ok 0x0200 ∧
        (h.turns 1).vectorRead 0x0200 = .ok 0 ∧ (h.turns 2).vectorRead (0x0200 + 1) = .ok 0 ∧
        (h.turns 3).vectorRead (0x0200 + 2 + BitVec.ofNat 16 e.toNat) = .ok 0 ∧
        (h.turns 4).vectorRead (BitVec.ofNat 16 (0x20 + 2 * n.toNat)) = .ok 0x0100 ∧ asLegal s.cfg (asOf 0) = true ∧
        s.translate .cpu .write (asOf 0) none 0x0100 = .ok 0x0100 ∧
        s.translate .cpu .write (asOf 0) none (0x0100 + 1) = .ok 0x0101 ∧
        s.translate .cpu .write (asOf 0) none (0x0100 + 2) = .ok 0x0102 := by
  intro n hn e he
  simp only [List.mem_cons, List.mem_nil_iff, or_false] at hn he
  rcases hn with rfl | rfl <;> rcases he with rfl | rfl <;>
    exact ⟨rfl, rfl, rfl, rfl, rfl, rfl, rfl, rfl, rfl, rfl⟩

/-- OperandFaultsStop: a word that can be read and not written, also through a pointer, a base and an index register. -/
theorem witness_refused_store :
    let s : State := setRegs
      { full with ctl := { full.ctl with mpr := Vector.replicate 128 0xFFFF, mprotEn := true } } [(1, 1)]
    groupImplemented s.cfg s.as = true ∧ s.read (s.daLong 0xFFFF 0) = .ok 0 ∧ (s.turns 1).read 0 = .ok 0 ∧
      s.reg (0 + 1) ≠ 0#16 ∧ s.reg 0 = 0#16 ∧ s.read (s.reg 2) = .ok 0 ∧
      ∀ a ∈ [s.daLong 0xFFFF 0, s.daBase 15 0xFF, s.daIndexed 12 1, 0],
        ∃ f, s.translate .cpu .write s.as (some s.ps) a = .error f := by
  refine ⟨rfl, rfl, rfl, by decide, rfl, rfl, ?_⟩
  simp only [List.forall_mem_cons, List.not_mem_nil, false_implies, implies_true, and_true]
  exact ⟨⟨_, rfl⟩, ⟨_, rfl⟩, ⟨_, rfl⟩, _, rfl⟩

/-- OperandFaultsStop: a TSB whose write a protection check refuses, and one whose write finds no memory under the ROM.
-/
theorem witness_refused_tsb :
    (let s : State := { full with ctl := { full.ctl with mpr := Vector.replicate 128 0xFFFF, mprotEn := true } }
     s.read (s.daLong 0xFFFF 0) = .ok 0 ∧
       ∃ f, s.translate .cpu .write s.as (some s.ps) (s.daLong 0xFFFF 0) = .error f ∧ f.bit = .cpuProtect) ∧
      (let s : State := { State.reset with cfg := { defaultConfig with surom := some 0, physRanges := [] } }
       groupImplemented s.cfg s.as = true ∧ s.read (s.daLong 0 0) = .ok 0 ∧
         ∃ f, s.translate .cpu .write s.as (some s.ps) (s.daLong 0 0) = .error f ∧ f.bit ≠ .cpuProtect) :=
  ⟨⟨rfl, _, rfl, rfl⟩, rfl, rfl, _, rfl, by decide⟩

/-- AddressTranslation: the first address state without a group. -/
theorem witness_no_group : group0.cfg.mmu = some ⟨.two, true⟩ ∧ GroupCount.two.toNat ≤ group0.as.toNat := ⟨rfl,
  by decide⟩

/-- InterruptSequence: a new SW whose AS names no group. -/
theorem witness_bad_state :
    let s := loaded [(0x21, 0x0200), (0x0201, 0x0001)]
    let h : State := { s with dev := { s.dev with
      ioicHold1 := s.dev.ioicHold1 || (s.cfg.hasIoic && 0#4 == s.cfg.intIo1)
      ioicHold2 := s.dev.ioicHold2 || (s.cfg.hasIoic && 0#4 == s.cfg.intIo2)
      ioicRequests1 := if s.cfg.hasIoic ∧ 0#4 = s.cfg.intIo1 ∧ s.dev.ioicHold1 = false
        then s.dev.ioicRequests1.erase s.dev.ioic1 else s.dev.ioicRequests1
      ioicRequests2 := if s.cfg.hasIoic ∧ 0#4 = s.cfg.intIo2 ∧ s.dev.ioicHold2 = false
        then s.dev.ioicRequests2.erase s.dev.ioic2 else s.dev.ioicRequests2 } }
    s.mem.wf = true ∧ h.vectorRead 0x0021 = .ok 0x0200 ∧ (h.turns 1).vectorRead 0x0200 = .ok 0 ∧
      (h.turns 2).vectorRead (0x0200 + 1) = .ok 1 ∧ (h.turns 3).vectorRead (0x0200 + 2 + BitVec.ofNat 16 0) = .ok 0 ∧
      (h.turns 4).vectorRead 0x0020 = .ok 0 ∧ asLegal s.cfg (asOf 1) = false :=
  ⟨rfl, rfl, rfl, rfl, rfl, rfl, rfl⟩

/-- BranchToExecutive: a machine whose vector of interrupt 5 is set up. -/
theorem witness_executive :
    let s := loaded [(0x2A, 0x0100), (0x2B, 0x0200)]
    let h : State := { s with dev := { s.dev with
      ioicHold1 := s.dev.ioicHold1 || (s.cfg.hasIoic && 5#4 == s.cfg.intIo1)
      ioicHold2 := s.dev.ioicHold2 || (s.cfg.hasIoic && 5#4 == s.cfg.intIo2)
      ioicRequests1 := if s.cfg.hasIoic ∧ 5#4 = s.cfg.intIo1 ∧ s.dev.ioicHold1 = false
        then s.dev.ioicRequests1.erase s.dev.ioic1 else s.dev.ioicRequests1
      ioicRequests2 := if s.cfg.hasIoic ∧ 5#4 = s.cfg.intIo2 ∧ s.dev.ioicHold2 = false
        then s.dev.ioicRequests2.erase s.dev.ioic2 else s.dev.ioicRequests2 } }
    s.mem.wf = true ∧ h.vectorRead 0x002B = .ok 0x0200 ∧ (h.turns 1).vectorRead 0x0200 = .ok 0 ∧
      (h.turns 2).vectorRead (0x0200 + 1) = .ok 0 ∧
      (h.turns 3).vectorRead (0x0200 + 2 + BitVec.ofNat 16 (15#4).toNat) = .ok 0 ∧
      (h.turns 4).vectorRead 0x002A = .ok 0x0100 ∧ asLegal s.cfg (asOf 0) = true ∧
      s.translate .cpu .write (asOf 0) none 0x0100 = .ok 0x0100 ∧
      s.translate .cpu .write (asOf 0) none (0x0100 + 1) = .ok 0x0101 ∧
      s.translate .cpu .write (asOf 0) none (0x0100 + 2) = .ok 0x0102 :=
  ⟨rfl, rfl, rfl, rfl, rfl, rfl, rfl, rfl, rfl, rfl⟩

/-- ExecutiveCallReturns: the reset state, whose vector words are zero. -/
theorem witness_call_returns :
    let s := State.reset
    s.mem.wf = true ∧ s.cfg.mmu = none ∧ s.cfg.hasMprot = false ∧ s.cfg.surom = none ∧ s.cfg.hasParity = false ∧
      s.cfg.hasIoic = false ∧ (∀ a, a < 65536 → physImplemented s.cfg a = true) ∧ s.dma.slots = [] ∧
      s.vectorRead 0x002A = .ok 0 ∧
      (∀ svp, s.vectorRead 0x002B = .ok svp → s.vectorRead (svp + 1) = .ok 0) ∧ (0#16 &&& 0x0FFF#16) = 0#16 ∧
      s.sw &&& 0x0F0F#16 = 0#16 ∧ ∃ t, exec (.bex 15) s = .next t := by
  refine ⟨rfl, rfl, rfl, rfl, rfl, rfl, ?_, rfl, rfl, ?_, rfl, rfl, _, rfl⟩
  · intro a h
    simp [physImplemented, physSize, State.reset, defaultConfig]
    omega
  · intro svp h
    have e : (.ok 0 : Except FaultReq Word) = .ok svp := h
    cases e
    rfl

/-- StepTakesInterrupt: a NOP with nothing pending, and one with interrupt 5 pending. -/
theorem witness_taken :
    (let s := at100 [0xFF00] [] []
     s.halted = false ∧ s.enblPending = false ∧
       ∃ f u, s.fetchInstr = (.ok .nop, f) ∧ exec .nop f = .next u ∧ u.schedule = [] ∧ u.halted = false ∧
         u.nextInterrupt = none) ∧
      (let s : State := { at100 [0xFF00] [] [] with pi := 0x0400 }
       s.halted = false ∧ s.enblPending = false ∧
         ∃ f u t, s.fetchInstr = (.ok .nop, f) ∧ exec .nop f = .next u ∧ u.schedule = [] ∧ u.halted = false ∧
           u.nextInterrupt = some 5 ∧
           ({ u with ic := u.resumeIc.getD u.ic } : State).enterInterrupt 5 0 (u.resumeIc.getD u.ic) = .done t ∧
           t.nextInterrupt = none) :=
  ⟨⟨rfl, rfl, _, _, rfl, rfl, rfl, rfl, by decide⟩, rfl, rfl, _, _, _, rfl, rfl, rfl, rfl, by decide, rfl, by decide⟩

/-- EnableDelay: ENBL and a NOP after it, without and with an interrupt 4 that the NOP enables, ENBL and a BPT, and an
interrupt 5 right after the ENBL. -/
theorem witness_enable :
    let ends (v : State) : State := { v with spiHold := v.spiHold.tail, resumeIc := none }
    let enbl (f : State) : State := { f with ic := 0x0102, enblPending := true }
    let on (u : State) : State := { u with ien := true, enblPending := false }
    let due (v : State) (n : BitVec 4) : Prop := v.nextInterrupt = some n ∧
      ∃ w, State.enterInterrupt { v with ic := v.resumeIc.getD v.ic } n 0 (v.resumeIc.getD v.ic) = .done w ∧
        w.nextInterrupt = none
    let starts (s f : State) : Prop := s.halted = false ∧ s.enblPending = false ∧ s.schedule = [] ∧ s.ps = 0#4 ∧
      s.daLong 0x2002 0 = 0x2002#16 ∧ s.fetchInstr = (.ok (.xio 0 0 0x2002), f)
    (let s := at100 [0x4800, 0x2002, 0xFF00] [] []
     ∃ f g u, starts s f ∧ (enbl f).nextInterrupt = none ∧ (ends (enbl f)).fetchInstr = (.ok .nop, g) ∧
       exec .nop g = .next u ∧ u.schedule = [] ∧ (on u).nextInterrupt = none) ∧
      (let s := { at100 [0x4800, 0x2002, 0xFF00] [] [] with pi := 0x0800, mask := 0x0800 }
       ∃ f g u, starts s f ∧ (enbl f).nextInterrupt = none ∧ (ends (enbl f)).fetchInstr = (.ok .nop, g) ∧
         exec .nop g = .next u ∧ u.schedule = [] ∧ u.halted = false ∧ u.enblPending = true ∧ due (on u) 4) ∧
      (let s := { at100 [0x4800, 0x2002, 0xFFFF] [] [] with
         cfg := { defaultConfig with hasConsole := true, consoleConnected := true } }
       ∃ f g u, starts s f ∧ (ends (enbl f)).fetchInstr = (.ok .bpt, g) ∧ exec .bpt g = .next u ∧ u.schedule = [] ∧
         u.halted = true) ∧
      (let s := { at100 [0x4800, 0x2002] [] [] with pi := 0x0400 }
       ∃ f, starts s f ∧ due (enbl f) 5) := by
  refine ⟨⟨_, _, _, ⟨rfl, rfl, rfl, rfl, rfl, rfl⟩, by decide, rfl, rfl, rfl, by decide⟩,
    ⟨_, _, _, ⟨rfl, rfl, rfl, rfl, rfl, rfl⟩, by decide, rfl, rfl, rfl, rfl, rfl, by decide, _, rfl, by decide⟩,
    ⟨_, _, _, ⟨rfl, rfl, rfl, rfl, rfl, rfl⟩, rfl, rfl, rfl, rfl⟩,
    _, ⟨rfl, rfl, rfl, rfl, rfl, rfl⟩, by decide, _, rfl, by decide⟩

/-- InterruptCommands, DeviceCommands, InputCommands: a machine with every option forms every command. -/
theorem witness_commands :
    full.ps = 0#4 ∧ (∀ cmd, full.daLong cmd 0 = cmd) ∧ full.cfg.hasPio = true ∧ full.cfg.hasDiscretes = true ∧
      full.cfg.hasNpu = true ∧ full.cfg.hasConsole = true ∧ full.cfg.consoleConnected = true ∧ full.cfg.hasDma = true ∧
      full.cfg.hasTimers = true ∧ full.cfg.hasGo = true ∧ full.cfg.surom ≠ none ∧ full.cfg.hasMprot = true ∧
      full.cfg.hasIoic = true ∧ full.cfg.hasMfsr = true ∧ full.cfg.mmu = some ⟨.sixteen, true⟩ ∧
      255 < 16 * GroupCount.sixteen.toNat ∧ asLegal State.reset.cfg (asOf 1) = false ∧
        asLegal full.cfg (asOf 15) = true ∧
      full.dev.consoleIn.length < 2 ∧ ∃ s : State, s.cfg.consoleConnected = true ∧ s.dev.consoleIn = 1 :: 2 :: [] := by
  refine ⟨rfl, ?_, rfl, rfl, rfl, rfl, rfl, rfl, rfl, rfl, by decide, rfl, rfl, rfl, rfl, by decide, rfl, rfl,
    by decide,
    { full with dev := { full.dev with consoleIn := [1, 2] } }, rfl, rfl⟩
  intro cmd
  show cmd + 0#16 = cmd
  exact BitVec.add_zero cmd

/-- CommandSet: the configuration without options, a command it does not have. -/
theorem witness_command_set :
    (let c : Config := { defaultConfig with hasTimers := false, hasDiscretes := false }
     c.mmu = none ∧ c.hasMfsr = false ∧ c.hasMprot = false ∧ c.surom = none ∧ c.hasTimers = false ∧ c.hasIoic = false ∧
       c.hasDma = false ∧ c.hasConsole = false ∧ c.hasDiscretes = false ∧ c.hasNpu = false ∧ c.hasGo = false ∧
       c.hasPio = false) ∧
      State.reset.ps = 0#4 ∧ xioCommand State.reset.cfg (State.reset.daLong 0x2011 0) = none :=
  ⟨⟨rfl, rfl, rfl, rfl, rfl, rfl, rfl, rfl, rfl, rfl, rfl, rfl⟩, rfl, rfl⟩

/-- VectoredInputOutput: no bit, two outputs, a missing command first and second, a WSW that faults. -/
theorem witness_vectored :
    let selected (sel : Word) : List Nat := (List.range 16).filter fun k => sel.getLsbD (15 - k)
    let cmd (base step : Word) (k : Nat) := xioCommand defaultConfig (base + BitVec.ofNat 16 k * step)
    (let s := State.reset
     s.ps = 0#4 ∧ s.mem.wf = true ∧ s.read (s.daLong 0xFFFF 0) = .ok 0 ∧
       (s.turns 1).read (s.daLong 0xFFFF 0 + 1) = .ok 0 ∧ selected 0 = []) ∧
      (let s := loaded [(0x0200, 0x2000), (0x0201, 0xC000)]
       s.read (s.daLong 0x0200 0) = .ok 0x2000 ∧ (s.turns 1).read (s.daLong 0x0200 0 + 1) = .ok 0xC000 ∧
         selected 0xC000 = [0] ++ 1 :: [] ∧ cmd 0x2000 (s.reg 1) 0 = some (.output .smk) ∧
           cmd 0x2000 (s.reg 1) 1 = some (.output .smk) ∧
         ∃ t u, (s.turns 2).read (s.daLong 0x0200 0 + 2) = .ok 0 ∧ ((s.turns 2).turns 1).output .smk 0 = .done t ∧
           t.read (s.daLong 0x0200 0 + 2 + 1) = .ok 0 ∧ (t.turns 1).output .smk 0 = .done u) ∧
      (cmd 0x2000 6 0 = some (.output .smk) ∧ cmd 0x2000 6 15 = none ∧ selected 0x8001 = [0] ++ 15 :: [] ∧
        cmd 0 0 0 = none ∧ selected 0x8000 = [] ++ 0 :: [] ∧ cmd 0x2000 14 1 = some (.output .wsw)) ∧
      ∃ f t, ((State.reset.turns 2).turns 1).output .wsw 1 = .faulted f t :=
  ⟨⟨rfl, rfl, rfl, rfl, by decide⟩, ⟨rfl, rfl, by decide, rfl, rfl, _, _, rfl, rfl, rfl, rfl⟩,
    ⟨rfl, rfl, by decide, rfl, by decide, rfl⟩, _, _, rfl⟩

/-- VectoredInputOutput: the last bit with an input, its data word written and refused, and an output word that is not
there. -/
theorem witness_vectored_data :
    (let s := loaded [(0x0200, 0xA000), (0x0201, 0x0001)]
     s.ps = 0#4 ∧ s.mem.wf = true ∧ s.read (s.daLong 0x0200 0) = .ok 0xA000 ∧
       (s.turns 1).read (s.daLong 0x0200 0 + 1) = .ok 1 ∧
       ((List.range 16).filter fun k => (0x0001#16).getLsbD (15 - k)) = [15] ∧
       xioCommand s.cfg (0xA000 + BitVec.ofNat 16 15 * s.reg 1) = some (.input .rmk) ∧
       ((s.turns 2).input .rmk).2.writable (s.daLong 0x0200 0 + 2) 0x0202) ∧
      ∀ base ∈ [0xA000#16, 0x2000],
        let s : State := { loaded [(0x0200, base), (0x0201, 1)] with cfg := { defaultConfig with physRanges := [(0,
          514)] } }
        s.read (s.daLong 0x0200 0) = .ok base ∧ (s.turns 1).read (s.daLong 0x0200 0 + 1) = .ok 1 ∧
          (let v := ((s.turns 2).input .rmk).2
           groupImplemented v.cfg v.as = true ∧
             ∃ f, v.translate .cpu .write v.as (some v.ps) (s.daLong 0x0200 0 + 2) = .error f) ∧
          ∃ f, (s.turns 2).read (s.daLong 0x0200 0 + 2) = .error (.fault f) := by
  refine ⟨⟨rfl, rfl, rfl, rfl, by decide, rfl, rfl, rfl⟩, ?_⟩
  intro base hb
  simp only [List.mem_cons, List.mem_nil_iff, or_false] at hb
  rcases hb with rfl | rfl <;> exact ⟨rfl, rfl, ⟨rfl, _, rfl⟩, _, rfl⟩

/-- OutsideEvents: running and halted timers, a machine without, parity on and off, a signal that is not parity, the DMA
enabled and not, a slot before the next reference. -/
theorem witness_outside :
    full.cfg.hasTimers = true ∧ full.dev.taRun = true ∧ full.dev.tbRun = true ∧
      (({ State.reset with dev := { Devices.reset with taRun := false, tbRun := false } } : State).dev.taRun = false) ∧
      ({ State.reset with cfg := { defaultConfig with hasTimers := false } } : State).cfg.hasTimers = false ∧
      full.cfg.hasParity = true ∧ State.reset.cfg.hasParity = false ∧ (∀ la i as, FaultSignal.bite ≠ .parity la i as) ∧
      full.dev.dmaEn = false ∧ State.reset.cfg.hasDma = false ∧ parted.dma.slots = [] :: [[⟨.physical 0,
        .write 0xABCD⟩]] ∧
      (parted.turns 1).dma.slots = [⟨.physical 0, .write 0xABCD⟩] :: [] ∧ State.reset.dma.slots = [] :=
  ⟨rfl, rfl, rfl, rfl, rfl, rfl, rfl, by simp, rfl, rfl, rfl, rfl, rfl⟩

/-- OutsideEvents, InputCommands: IOIC held and not, with no request and with one. -/
theorem witness_channels :
    full.cfg.hasIoic = true ∧ full.dev.ioicHold1 = false ∧ full.dev.ioicRequests1 = [] ∧
      (full.applyEvent (.channel .level1 9)).dev.ioicRequests1 ≠ [] ∧
      ({ full with dev := { full.dev with ioicHold2 := true } } : State).dev.ioicHold2 = true :=
  ⟨rfl, rfl, rfl, by decide, rfl⟩

/-- OutsideEvents: references of DMA that reach a word, mapped and not, reading and writing, and that fault. -/
theorem witness_dma :
    let s : State := { full with
      cfg := { fullConfig with mmu := some ⟨.two, true⟩, physRanges := [(0, 65536)] }
      dev := { Devices.reset with dmaEn := true } }
    s.cfg.hasDma = true ∧ s.dev.dmaEn = true ∧ s.mem.wf = true ∧ groupImplemented s.cfg 1 = true ∧
      groupImplemented s.cfg 2 = false ∧ s.checkPhysical .dma .read 0 (0xFFFF#20).toNat = .ok 65535 ∧
      s.checkPhysical .dma .write 0 (0#20).toNat = .ok 0 ∧
      s.checkPhysical .dma .write 0 (0x10000#20).toNat = .error ⟨.illegalAddress, some 0⟩ ∧
      s.checkPhysical .dma .read 0 (0x10000#20).toNat = .error ⟨.illegalAddress, some 0⟩ ∧
      s.translate .dma .read 1 (some 0) 0xFFFF = .ok 65535 ∧ s.translate .dma .write 1 (some 0) 0 = .ok 0 ∧
      (∃ f, s.translate .dma .read 1 (some 1) 0 = .error f) ∧ ∃ f, s.translate .dma .write 1 (some 1) 0 = .error f :=
  ⟨rfl, rfl, rfl, rfl, rfl, rfl, rfl, rfl, rfl, by decide, by decide, ⟨_, rfl⟩, _, rfl⟩

end Sys2Proof.Tests
end

section
/-! The rules the statements of Safety.lean are met with: what `turns` leaves alone, reads made one after the other, the
registers after a write as a function, and every `finish` as a `State.after`. -/

namespace Sys2Proof.Machine

/-! ### Turns -/

/-- The turn after `n` turns is one more turn from the start. -/
theorem State.turn_turns : ∀ (n : Nat) (s : State), (s.turns n).turn = s.turns (n + 1)
  | 0, _ => rfl
  | n + 1, s => State.turn_turns n s.turn

@[simp] theorem State.turns_regs : ∀ (n : Nat) (s : State), (s.turns n).regs = s.regs
  | 0, _ => rfl
  | n + 1, s => (State.turns_regs n s.turn).trans s.turn_regs

@[simp] theorem State.turns_ic : ∀ (n : Nat) (s : State), (s.turns n).ic = s.ic
  | 0, _ => rfl
  | n + 1, s => (State.turns_ic n s.turn).trans s.turn_ic

/-- DMA leaves the general registers alone. -/
@[simp] theorem State.turns_reg (n : Nat) (s : State) : (s.turns n).reg = s.reg := by
  funext r
  simp only [State.reg, State.turns_regs]

/-! ### Reads in turn

`n` references are made already; each further one is made in its own turn. -/

section
variable {s : State} {n : Nat}

theorem State.readThen_turns {la v : Word} {k : Word → State → Out} (h : (s.turns n).read la = .ok v) :
    (s.turns n).readThen la k = k v (s.turns (n + 1)) := by
  rw [State.readThen_ok h, State.turn_turns]

theorem State.readThen2_turns {la hi lo : Word} {k : Long → State → Out} (h0 : (s.turns n).read la = .ok hi)
    (h1 : (s.turns (n + 1)).read (la + 1) = .ok lo) :
    (s.turns n).readThen2 la k = k (Long.ofWords hi lo) (s.turns (n + 2)) := by
  rw [State.readThen2, State.readThen_turns h0, State.readThen_turns h1]

theorem State.readThen3_turns {la w0 w1 w2 : Word} {k : Ext → State → Out} (h0 : (s.turns n).read la = .ok w0)
    (h1 : (s.turns (n + 1)).read (la + 1) = .ok w1) (h2 : (s.turns (n + 2)).read (la + 2) = .ok w2) :
    (s.turns n).readThen3 la k = k (Ext.ofWords w0 w1 w2) (s.turns (n + 3)) := by
  rw [State.readThen3, State.readThen_turns h0, State.readThen_turns h1, State.readThen_turns h2]

/-- Mode I: the pointer in the first turn, the operand in the second. -/
theorem State.indirectThen_ok {addr p v : Word} {rx : Reg} {k : Word → State → Out}
    (hp : s.read (s.daLong addr rx) = .ok p) (h : (s.turns 1).read p = .ok v) :
    s.indirectThen addr rx k = k v (s.turns 2) := by
  rw [State.indirectThen, State.pointerThen, State.readThen_ok hp]
  exact State.readThen_turns (n := 1) h

/-- Mode I with a double word: the pointer in the first turn, the operand in the two after it. -/
theorem State.indirectThen2_ok {addr p hi lo : Word} {rx : Reg} {k : Long → State → Out}
    (hp : s.read (s.daLong addr rx) = .ok p) (h0 : (s.turns 1).read p = .ok hi)
    (h1 : (s.turns 2).read (p + 1) = .ok lo) :
    s.indirectThen2 addr rx k = k (Long.ofWords hi lo) (s.turns 3) := by
  rw [State.indirectThen2, State.pointerThen, State.readThen_ok hp]
  exact State.readThen2_turns (n := 1) h0 h1

end

/-! ### The words of a quantity -/

@[simp] theorem Ext.w0_ofWords (a b c : Word) : Ext.w0 (Ext.ofWords a b c) = a :=
  calc (a ++ b ++ c : BitVec (16 + 16 + 16)).extractLsb' 32 16
    _ = (a ++ b).extractLsb' 16 16 := BitVec.extractLsb'_append_eq_of_le (by decide)
    _ = a := BitVec.extractLsb'_append_eq_left

@[simp] theorem Ext.w1_ofWords (a b c : Word) : Ext.w1 (Ext.ofWords a b c) = b :=
  calc (a ++ b ++ c : BitVec (16 + 16 + 16)).extractLsb' 16 16
    _ = (a ++ b).extractLsb' 0 16 := BitVec.extractLsb'_append_eq_of_le (by decide)
    _ = b := BitVec.extractLsb'_append_eq_right

@[simp] theorem Ext.w2_ofWords (a b c : Word) : Ext.w2 (Ext.ofWords a b c) = c :=
  BitVec.extractLsb'_append_eq_right

/-! ### The registers after a write -/

theorem State.reg_setReg (s : State) (r : Reg) (v : Word) : (s.setReg r v).reg = set1 s.reg r v := by
  funext q
  by_cases h : q = r
  · simp [set1, h]
  · simp [set1, h, State.reg_setReg_other s v h]

/-- Writes of two registers may be made in either order. -/
theorem set1_comm (f : Reg → Word) {r q : Reg} (v w : Word) (h : r ≠ q) :
    set1 (set1 f r v) q w = set1 (set1 f q w) r v := by
  funext p
  by_cases hr : p = r
  · simp [set1, hr, h]
  · simp [set1, hr]

/-- The second register of a pair is another one, also where the count wraps. -/
theorem reg_ne_add_one (r : Reg) : r ≠ r + 1 := by decide +revert

theorem reg_ne_add_two (r : Reg) : r ≠ r + 2 := by decide +revert

theorem reg_add_one_ne_add_two (r : Reg) : r + 1 ≠ r + 2 := by decide +revert

theorem State.reg_setPair (s : State) (r : Reg) (v : Long) :
    (s.setPair r v).reg = set2 s.reg r (Long.hi v) (Long.lo v) := by
  rw [State.setPair, State.reg_setReg, State.reg_setReg, set1_comm _ _ _ (reg_ne_add_one r)]
  rfl

theorem State.reg_setTriple (s : State) (r : Reg) (v : Ext) :
    (s.setTriple r v).reg = set3 s.reg r (Ext.w0 v) (Ext.w1 v) (Ext.w2 v) := by
  rw [State.setTriple, State.reg_setReg, State.reg_setReg, State.reg_setReg, set1_comm _ _ _ (reg_ne_add_one r),
    set1_comm _ _ _ (reg_ne_add_two r), set1_comm _ _ _ (reg_add_one_ne_add_two r)]
  rfl

/-! ### `State.after` -/

/-- A request of no interrupt releases nothing. -/
@[simp] theorem releaseHold_zero (held : List Word) : releaseHold 0 held = held := by
  have keep (h : Word) : h &&& ~~~0#16 = h := by simp only [BitVec.not_zero, BitVec.and_allOnes]
  exact (List.map_congr_left fun h _ => keep h).trans (List.map_id held)

/-- The registers are the vector of what `reg` reads. -/
theorem State.ofFn_reg (s : State) : (Vector.ofFn fun k => s.reg (BitVec.ofFin k)) = s.regs := by
  ext i hi
  simp [State.reg]

/-- A rule that ends with CS and IC leaves everything else as it was. -/
theorem State.finishCs_eq_after (s : State) (cs : BitVec 4) (len : Word) :
    s.finishCs cs len = s.after s.reg cs 0 (s.ic + len) := by
  have hpi : s.pi ||| 0 = s.pi := BitVec.or_zero
  rw [State.after, State.ofFn_reg, releaseHold_zero, hpi]
  rfl

/-- `after` looks at the registers of its state only where it is told to. -/
theorem State.after_setReg (s : State) (r : Reg) (v : Word) (f : Reg → Word) (cs : BitVec 4) (m ic : Word) :
    (s.setReg r v).after f cs m ic = s.after f cs m ic := rfl

theorem State.finish_eq_after (s : State) (r : Reg) (v : Word) (cs : BitVec 4) (len : Word) :
    s.finish r v cs len = s.after (set1 s.reg r v) cs 0 (s.ic + len) :=
  calc s.finish r v cs len
    _ = (s.setReg r v).after (s.setReg r v).reg cs 0 (s.ic + len) := State.finishCs_eq_after _ cs len
    _ = s.after (set1 s.reg r v) cs 0 (s.ic + len) := by rw [State.reg_setReg, State.after_setReg]

theorem State.finish2_eq_after (s : State) (r : Reg) (v : Long) (cs : BitVec 4) (len : Word) :
    s.finish2 r v cs len = s.after (set2 s.reg r (Long.hi v) (Long.lo v)) cs 0 (s.ic + len) :=
  calc s.finish2 r v cs len
    _ = (s.setPair r v).after (s.setPair r v).reg cs 0 (s.ic + len) := State.finishCs_eq_after _ cs len
    _ = s.after (set2 s.reg r (Long.hi v) (Long.lo v)) cs 0 (s.ic + len) := by
      rw [State.reg_setPair, State.setPair, State.after_setReg, State.after_setReg]

theorem State.finish3_eq_after (s : State) (r : Reg) (v : Ext) (cs : BitVec 4) (len : Word) :
    s.finish3 r v cs len = s.after (set3 s.reg r (Ext.w0 v) (Ext.w1 v) (Ext.w2 v)) cs 0 (s.ic + len) :=
  calc s.finish3 r v cs len
    _ = (s.setTriple r v).after (s.setTriple r v).reg cs 0 (s.ic + len) := State.finishCs_eq_after _ cs len
    _ = s.after (set3 s.reg r (Ext.w0 v) (Ext.w1 v) (Ext.w2 v)) cs 0 (s.ic + len) := by
      rw [State.reg_setTriple, State.setTriple, State.after_setReg, State.after_setReg, State.after_setReg]

/-! ### Condition status -/

/-- The CS of a result is the sign of its two's complement number (10_state.md R41). -/
theorem pzn_eq_signCs {w : Nat} (v : BitVec w) : pzn v = signCs false v.toInt := by
  have hzero : v.toInt = 0 ↔ v = 0#w := by rw [← BitVec.toInt_inj, BitVec.toInt_zero]
  simp [pzn, signCs, hzero, BitVec.msb_eq_toInt]

end Sys2Proof.Machine
end

section
/-! The load rules on `State.after`, the operands that are formed without a reference or from part of a word, and the
statements SingleLoads, DoubleLoads, ExtendedAndByteLoads. -/

namespace Sys2Proof.Machine

/-! ### What a load leaves -/

theorem State.loadTo_turns (s : State) (k : Nat) (r : Reg) (v len : Word) :
    (s.turns k).loadTo r v len = (s.turns k).after (set1 s.reg r v) (signCs false v.toInt) 0 (s.ic + len) := by
  rw [State.loadTo, State.finish_eq_after, State.turns_reg, State.turns_ic, pzn_eq_signCs]

theorem State.loadTo2_turns (s : State) (k : Nat) (r : Reg) (hi lo len : Word) :
    (s.turns k).loadTo2 r (Long.ofWords hi lo) len =
      (s.turns k).after (set2 s.reg r hi lo) (signCs false (hi ++ lo : BitVec (16 + 16)).toInt) 0 (s.ic + len) := by
  rw [State.loadTo2, State.finish2_eq_after, State.turns_reg, State.turns_ic, pzn_eq_signCs, Long.hi_ofWords,
    Long.lo_ofWords, Long.ofWords]

section
variable {s : State} (r : Reg) (len : Word)

/-- A single load of a word of memory. -/
theorem State.readThen_loadTo {la v : Word} (h : s.read la = .ok v) :
    (s.readThen la fun v t => .next (t.loadTo r v len)) =
      .next ((s.turns 1).after (set1 s.reg r v) (signCs false v.toInt) 0 (s.ic + len)) := by
  rw [State.readThen_ok h]
  exact congrArg _ (State.loadTo_turns s 1 r v len)

theorem State.indirectThen_loadTo {addr p v : Word} {rx : Reg} (hp : s.read (s.daLong addr rx) = .ok p)
    (h : (s.turns 1).read p = .ok v) :
    (s.indirectThen addr rx fun v t => .next (t.loadTo r v len)) =
      .next ((s.turns 2).after (set1 s.reg r v) (signCs false v.toInt) 0 (s.ic + len)) := by
  rw [State.indirectThen_ok hp h, State.loadTo_turns]

/-- A double load of two words of memory. -/
theorem State.readThen2_loadTo2 {la hi lo : Word} (h0 : s.read la = .ok hi) (h1 : (s.turns 1).read (la + 1) = .ok lo) :
    (s.readThen2 la fun v t => .next (t.loadTo2 r v len)) =
      .next ((s.turns 2).after (set2 s.reg r hi lo) (signCs false (hi ++ lo : BitVec (16 + 16)).toInt) 0
        (s.ic + len)) := by
  rw [← State.loadTo2_turns]
  exact State.readThen2_turns (n := 0) h0 h1

theorem State.indirectThen2_loadTo2 {addr p hi lo : Word} {rx : Reg} (hp : s.read (s.daLong addr rx) = .ok p)
    (h0 : (s.turns 1).read p = .ok hi) (h1 : (s.turns 2).read (p + 1) = .ok lo) :
    (s.indirectThen2 addr rx fun v t => .next (t.loadTo2 r v len)) =
      .next ((s.turns 3).after (set2 s.reg r hi lo) (signCs false (hi ++ lo : BitVec (16 + 16)).toInt) 0
        (s.ic + len)) := by
  rw [State.indirectThen2_ok hp h0 h1, State.loadTo2_turns]

end

/-! ### Short immediates (30_encoding.md R181, R182) -/

theorem signCs_shortPositive {n : Nat} (h1 : 1 ≤ n) (h16 : n ≤ 16) :
    signCs false (shortPositive n).toInt = 0b0100#4 := by
  interval_cases n <;> decide

theorem signCs_shortNegative {n : Nat} (h1 : 1 ≤ n) (h16 : n ≤ 16) :
    signCs false (shortNegative n).toInt = 0b0001#4 := by
  interval_cases n <;> decide

theorem shortNegative_eq_ofInt (n : Nat) : shortNegative n = BitVec.ofInt 16 (-n) := by
  rw [shortNegative, BitVec.zero_sub, BitVec.ofInt_neg, BitVec.ofInt_natCast]

/-! ### Bytes (44_load.md R450) -/

theorem toNat_upper (w : Word) : (Word.upper w).toNat = w.toNat / 256 := by
  rw [Word.upper, BitVec.extractLsb'_toNat, Nat.shiftRight_eq_div_pow]
  omega

theorem toNat_lower (w : Word) : (Word.lower w).toNat = w.toNat % 256 := by
  rw [Word.lower, BitVec.extractLsb'_toNat, Nat.shiftRight_zero]

/-- A word with its lower byte replaced, as a number. -/
theorem upper_append_eq_ofNat (w : Word) (b : Byte) :
    (Word.upper w ++ b : BitVec (8 + 8)) = BitVec.ofNat 16 (w.toNat / 256 * 256 + b.toNat) := by
  apply BitVec.eq_of_toNat_eq
  rw [BitVec.toNat_append, ← Nat.shiftLeft_add_eq_or_of_lt b.isLt, toNat_upper, Nat.shiftLeft_eq, BitVec.toNat_ofNat]
  omega

/-- A byte load, the byte given as a number. -/
theorem State.loadByte_turns (s : State) (k : Nat) (r : Reg) {b : Byte} {n : Nat} (hb : b.toNat = n) :
    (s.turns k).loadByte r b =
      let v := BitVec.ofNat 16 ((s.reg r).toNat / 256 * 256 + n)
      (s.turns k).after (set1 s.reg r v) (signCs false v.toInt) 0 (s.ic + 2) := by
  rw [State.loadByte, State.loadTo_turns, State.turns_reg, upper_append_eq_ofNat, hb]

section
variable {s : State} {m : Word} {n : Nat} (r : Reg) (byte : Word → Byte) (hb : (byte m).toNat = n)
include hb

/-- A byte load of a byte of one word of memory. -/
theorem State.readThen_loadByte {la : Word} (h : s.read la = .ok m) :
    (s.readThen la fun m t => .next (t.loadByte r (byte m))) =
      let v := BitVec.ofNat 16 ((s.reg r).toNat / 256 * 256 + n)
      .next ((s.turns 1).after (set1 s.reg r v) (signCs false v.toInt) 0 (s.ic + 2)) := by
  rw [State.readThen_ok h]
  exact congrArg _ (State.loadByte_turns s 1 r hb)

theorem State.indirectThen_loadByte {addr p : Word} {rx : Reg} (hp : s.read (s.daLong addr rx) = .ok p)
    (h : (s.turns 1).read p = .ok m) :
    (s.indirectThen addr rx fun m t => .next (t.loadByte r (byte m))) =
      let v := BitVec.ofNat 16 ((s.reg r).toNat / 256 * 256 + n)
      .next ((s.turns 2).after (set1 s.reg r v) (signCs false v.toInt) 0 (s.ic + 2)) := by
  rw [State.indirectThen_ok hp h, State.loadByte_turns s 2 r hb]

end

/-! ### The extended load (44_load.md R448) -/

theorem append_eq_zero_iff {m n : Nat} (x : BitVec m) (y : BitVec n) : x ++ y = 0#(m + n) ↔ x = 0#m ∧ y = 0#n := by
  constructor
  · intro h
    have hx := congrArg (BitVec.extractLsb' n m) h
    have hy := congrArg (BitVec.extractLsb' 0 n) h
    rw [BitVec.extractLsb'_append_eq_left] at hx
    rw [BitVec.extractLsb'_append_eq_right] at hy
    simpa using And.intro hx hy
  · rintro ⟨rfl, rfl⟩
    exact BitVec.zero_append_zero

/-- The upper 24 bits of an extended number are its first word and the upper byte of its second. -/
theorem extractLsb'_mantissa_ofWords (w0 w1 w2 : Word) :
    (Ext.ofWords w0 w1 w2).extractLsb' 24 24 = (w0 ++ Word.upper w1 : BitVec (16 + 8)) := by
  apply BitVec.eq_of_getLsbD_eq
  intro i hi
  simp only [Ext.ofWords, Word.upper, BitVec.getLsbD_extractLsb', BitVec.getLsbD_append]
  by_cases h : i < 8
  · simp [hi, h, show ¬24 + i < 16 by omega, show 24 + i - 16 = 8 + i by omega, show 8 + i < 16 by omega]
  · simp [hi, h, show ¬24 + i < 16 by omega, show ¬24 + i - 16 < 16 by omega, show 24 + i - 16 - 16 = i - 8 by omega]

theorem msb_ofWords (w0 w1 w2 : Word) : (Ext.ofWords w0 w1 w2).msb = w0.msb := by
  rw [Ext.ofWords, BitVec.msb_append, BitVec.msb_append]
  rfl

/-- The CS of an extended load is the sign of the 40-bit mantissa; the exponent byte takes no part. -/
theorem mantissaCs_ofWords (w0 w1 w2 : Word) :
    mantissaCs (Ext.ofWords w0 w1 w2) = signCs false (w0 ++ Word.upper w1 ++ w2 : BitVec (16 + 8 + 16)).toInt := by
  have hlow : (Ext.ofWords w0 w1 w2).extractLsb' 0 16 = w2 := Ext.w2_ofWords w0 w1 w2
  have hmsb : (w0 ++ Word.upper w1 ++ w2 : BitVec (16 + 8 + 16)).msb = w0.msb := by
    rw [BitVec.msb_append, BitVec.msb_append]
    rfl
  rw [mantissaCs, extractLsb'_mantissa_ofWords, hlow, msb_ofWords, ← pzn_eq_signCs, pzn, hmsb]
  simp only [append_eq_zero_iff (w0 ++ Word.upper w1) w2]

/-- An extended load of three words of memory. -/
theorem State.readThen3_finish3 {s : State} {la w0 w1 w2 : Word} (r : Reg) (len : Word) (h0 : s.read la = .ok w0)
    (h1 : (s.turns 1).read (la + 1) = .ok w1) (h2 : (s.turns 2).read (la + 2) = .ok w2) :
    (s.readThen3 la fun v t => .next (t.finish3 r v (mantissaCs v) len)) =
      .next ((s.turns 3).after (set3 s.reg r w0 w1 w2)
        (signCs false (w0 ++ Word.upper w1 ++ w2 : BitVec (16 + 8 + 16)).toInt) 0 (s.ic + len)) := by
  have hread := State.readThen3_turns (n := 0) (k := fun v t => .next (t.finish3 r v (mantissaCs v) len)) h0 h1 h2
  refine hread.trans (congrArg _ ?_)
  rw [State.finish3_eq_after, State.turns_reg, State.turns_ic, mantissaCs_ofWords, Ext.w0_ofWords, Ext.w1_ofWords,
    Ext.w2_ofWords]

end Sys2Proof.Machine

/-! ### The statements -/

namespace Sys2Proof.Certificates

open Sys2Proof.Machine

/-- Settles O7: each addressing mode's operand, then the one load rule. -/
theorem singleLoads : Obligations.SingleLoads := by
  intro s ra rb br rx n addr p v dspl loads
  refine ⟨?lr, ?lim, ?short, ?lb, ?lbx, ?l, ?li⟩
  case lr => exact congrArg _ (s.loadTo_turns 0 ra (s.reg rb) 1)
  case lim => exact congrArg _ (s.loadTo_turns 0 ra (s.daLong addr rx) 2)
  case short =>
    intro h1 h16
    constructor
    · rw [← signCs_shortPositive h1 h16]
      exact congrArg _ (s.loadTo_turns 0 ra (shortPositive n) 1)
    · rw [← signCs_shortNegative h1 h16, ← shortNegative_eq_ofInt]
      exact congrArg _ (s.loadTo_turns 0 ra (shortNegative n) 1)
  case lb => exact State.readThen_loadTo accSingle 1
  case lbx => exact State.readThen_loadTo accSingle 1
  case l => exact State.readThen_loadTo ra 2
  case li => exact State.indirectThen_loadTo ra 2

/-- Settles O8: two words, each read in its own turn, or a pair of registers, then the one load rule. -/
theorem doubleLoads : Obligations.DoubleLoads := by
  intro s ra rb br rx addr p hi lo dspl loads
  refine ⟨?dlr, ?dlb, ?dlbx, ?dl, ?dli⟩
  case dlr => exact congrArg _ (s.loadTo2_turns 0 ra (s.reg rb) (s.reg (rb + 1)) 1)
  case dlb => exact State.readThen2_loadTo2 accDouble 1
  case dlbx => exact State.readThen2_loadTo2 accDouble 1
  case dl => exact State.readThen2_loadTo2 ra 2
  case dli => exact State.indirectThen2_loadTo2 ra 2

/-- Settles O9: EFL by the mantissa, the byte loads by the bytes of the word as numbers. -/
theorem extendedAndByteLoads : Obligations.ExtendedAndByteLoads := by
  intro s ra rx addr p m w0 w1 w2 byte
  refine ⟨?efl, ?direct, ?indirect⟩
  case efl => exact State.readThen3_finish3 ra 2
  case direct =>
    intro h
    exact ⟨State.readThen_loadByte ra Word.upper (toNat_upper m) h,
      State.readThen_loadByte ra Word.lower (toNat_lower m) h⟩
  case indirect =>
    intro hp h
    exact ⟨State.indirectThen_loadByte ra Word.upper (toNat_upper m) hp h,
      State.indirectThen_loadByte ra Word.lower (toNat_lower m) hp h⟩

end Sys2Proof.Certificates
end

section
/-! The rule of a store that ends with IC past the instruction, through a pointer and after a read of the same word, the
words that are stored in part, and the statements SingleStores, PartialStores. -/

namespace Sys2Proof.Machine

/-! ### What DMA leaves of the CPU's state and of its references -/

section
variable {s t : State}

theorem DmaOnly.regs (h : DmaOnly s t) : t.regs = s.regs := by
  unfold DmaOnly at h
  rw [h]

theorem DmaOnly.sw (h : DmaOnly s t) : t.sw = s.sw := by
  unfold DmaOnly at h
  rw [h]

theorem DmaOnly.ic (h : DmaOnly s t) : t.ic = s.ic := by
  unfold DmaOnly at h
  rw [h]

theorem DmaOnly.reg (h : DmaOnly s t) : t.reg = s.reg := by
  funext r
  simp only [State.reg, h.regs]

theorem DmaOnly.cs (h : DmaOnly s t) : t.cs = s.cs := by
  simp only [State.cs, h.sw]

end

theorem State.turns_wf : ∀ (n : Nat) {s : State}, s.mem.wf = true → (s.turns n).mem.wf = true
  | 0, _, h => h
  | n + 1, _, h => State.turns_wf n (State.turn_wf h)

/-- DMA changes no protection: a word that can be stored now can be stored after it. -/
theorem State.writable_turns {la : Word} {pa : Nat} :
    ∀ (n : Nat) {s : State}, s.writable la pa → (s.turns n).writable la pa
  | 0, _, h => h
  | n + 1, s, h => by
    have hturn : s.turn.writable la pa := by simpa [State.writable] using h
    exact State.writable_turns n hturn

/-! ### The end of a store -/

/-- CS and the rest of SW make up SW. -/
theorem State.setCs_cs_self (s : State) : s.setCs s.cs = s := by
  have hsw : (s.cs ++ s.sw.extractLsb' 0 12 : BitVec (4 + 12)) = s.sw :=
    (BitVec.extractLsb'_append_extractLsb'_eq_extractLsb' rfl).trans BitVec.extractLsb'_eq_self
  rw [State.setCs, hsw]

/-- A rule that ends with IC only leaves everything else as it was. -/
theorem State.advance_eq_after (s : State) (len : Word) : s.advance len = s.after s.reg s.cs 0 (s.ic + len) := by
  rw [← State.finishCs_eq_after, State.finishCs, State.setCs_cs_self]

/-- The registers, CS and IC of the end are those of the start, whatever DMA did between. -/
theorem DmaOnly.advance_eq_after {s t : State} (h : DmaOnly s t) (len : Word) :
    t.advance len = t.after s.reg s.cs 0 (s.ic + len) := by
  rw [State.advance_eq_after, h.reg, h.cs, h.ic]

/-- The store rule: words that can all be stored, in the state `u` that references before have led to from `s`. -/
theorem DmaOnly.stores_advance {s u : State} {ws : List (Word × Word)} {pas : List Nat} (hu : DmaOnly s u) (len : Word)
    (hw : u.mem.wf = true) (hg : groupImplemented u.cfg u.as = true)
    (h : ws.map (fun w => u.translate .cpu .write u.as (some u.ps) w.1) = pas.map Except.ok) :
    Stores (u.store ws fun t => .next (t.advance len)) u (pas.zip (ws.map Prod.snd))
      fun t => t.after s.reg s.cs 0 (s.ic + len) := by
  obtain ⟨t, hstored, hout⟩ := State.store_ok (fun t => .next (t.advance len)) hw hg h
  have hend := (hu.trans hstored.dmaOnly).advance_eq_after len
  exact ⟨t, hstored, hout.trans (congrArg _ hend)⟩

section
variable {s : State} {pa : Nat} (hw : s.mem.wf = true)
include hw

/-- One word, stored after `k` references. -/
theorem State.stores_turns (k : Nat) {la : Word} (v len : Word) (h : s.writable la pa) :
    Stores ((s.turns k).store [(la, v)] fun t => .next (t.advance len)) (s.turns k) [(pa, v)]
      fun t => t.after s.reg s.cs 0 (s.ic + len) := by
  obtain ⟨hgroup, htranslate⟩ := State.writable_turns k h
  exact (DmaOnly.turns k s).stores_advance (pas := [pa]) len (State.turns_wf k hw) hgroup
    (congrArg (fun e => [e]) htranslate)

/-- Mode I: the pointer in the first turn, the word in the second. -/
theorem State.stores_pointerThen {addr p : Word} {rx : Reg} (v : State → Word) (len : Word)
    (hp : s.read (s.daLong addr rx) = .ok p) (h : s.writable p pa) :
    Stores (s.pointerThen addr rx fun da t => t.store [(da, v t)] fun t => .next (t.advance len)) (s.turns 1)
      [(pa, v (s.turns 1))] fun t => t.after s.reg s.cs 0 (s.ic + len) := by
  rw [State.pointerThen, State.readThen_ok hp]
  exact State.stores_turns hw 1 _ len h

/-- A byte store reads the word in one turn and writes it in the next. -/
theorem State.stores_storeByte (k : Nat) {la w : Word} (f : Word → Byte → Word) (r : Reg)
    (hr : (s.turns k).read la = .ok w) (h : s.writable la pa) :
    Stores ((s.turns k).storeByte f r la) (s.turns (k + 1)) [(pa, f w (Word.lower (s.reg r)))]
      fun t => t.after s.reg s.cs 0 (s.ic + 2) := by
  rw [State.storeByte, State.readThen_turns hr, State.turns_reg]
  exact State.stores_turns hw (k + 1) _ 2 h

/-- SRM reads the word in one turn and writes it in the next. -/
theorem State.stores_srm {addr w : Word} {ra rx : Reg} (hr : s.read (s.daLong addr rx) = .ok w)
    (h : s.writable (s.daLong addr rx) pa) :
    Stores (execSrm ra rx addr s) (s.turns 1) [(pa, throughMask w (s.reg ra) (s.reg (ra + 1)))]
      fun t => t.after s.reg s.cs 0 (s.ic + 2) := by
  rw [execSrm, State.readThen_ok hr, State.turn_daLong, State.turn_reg, State.turn_reg]
  exact State.stores_turns hw 1 _ 2 h

theorem State.stores_pointerThen_storeByte {addr p w : Word} {rx : Reg} (f : Word → Byte → Word) (r : Reg)
    (hp : s.read (s.daLong addr rx) = .ok p) (hr : (s.turns 1).read p = .ok w) (h : s.writable p pa) :
    Stores (s.pointerThen addr rx fun da t => t.storeByte f r da) (s.turns 2) [(pa, f w (Word.lower (s.reg r)))]
      fun t => t.after s.reg s.cs 0 (s.ic + 2) := by
  rw [State.pointerThen, State.readThen_ok hp]
  exact State.stores_storeByte hw 1 f r hr h

end

/-! ### Words that are stored in part (45_store.md R493, R501, R502) -/

/-- Where the mask is 1 the bit becomes that of the data: it flips exactly if the two differ. -/
theorem throughMask_eq_xor (w data m : Word) : throughMask w data m = w ^^^ ((w ^^^ data) &&& m) := by
  apply BitVec.eq_of_getLsbD_eq
  intro i hi
  simp only [throughMask, BitVec.getLsbD_or, BitVec.getLsbD_and, BitVec.getLsbD_xor, BitVec.getLsbD_not, hi,
    decide_true, Bool.true_and]
  cases m.getLsbD i <;> simp

/-- A word with its upper byte replaced, as a number. -/
theorem withUpper_lower_eq_ofNat (w v : Word) :
    withUpper w (Word.lower v) = BitVec.ofNat 16 (v.toNat % 256 * 256 + w.toNat % 256) := by
  apply BitVec.eq_of_toNat_eq
  rw [withUpper, BitVec.toNat_append, ← Nat.shiftLeft_add_eq_or_of_lt (Word.lower w).isLt, toNat_lower, toNat_lower,
    Nat.shiftLeft_eq, BitVec.toNat_ofNat]
  omega

theorem withLower_lower_eq_ofNat (w v : Word) :
    withLower w (Word.lower v) = BitVec.ofNat 16 (w.toNat / 256 * 256 + v.toNat % 256) := by
  rw [withLower, upper_append_eq_ofNat, toNat_lower]

end Sys2Proof.Machine

/-! ### The statements -/

namespace Sys2Proof.Certificates

open Sys2Proof.Machine

/-- Settles O11: each addressing mode's address, then the one store rule. -/
theorem singleStores : Obligations.SingleStores := by
  intro s n ra br rx addr p dspl pa hw ends
  have hconst : n.zeroExtend 16 = BitVec.ofNat 16 n.toNat := (BitVec.ofNat_toNat 16 n).symm
  refine ⟨?direct, ?stb, ?stbx, ?indirect⟩
  case direct =>
    intro h
    rw [← hconst]
    exact ⟨State.stores_turns hw 0 (s.reg ra) 2 h, State.stores_turns hw 0 (n.zeroExtend 16) 2 h⟩
  case stb => exact State.stores_turns hw 0 (s.reg accSingle) 1
  case stbx => exact State.stores_turns hw 0 (s.reg accSingle) 1
  case indirect =>
    intro hp h
    rw [← hconst, ← State.turns_reg 1 s]
    exact ⟨State.stores_pointerThen hw (fun t => t.reg ra) 2 hp h,
      State.stores_pointerThen hw (fun _ => n.zeroExtend 16) 2 hp h⟩

/-- Settles O13: the word is read, changed in part and stored in the next turn; the parts as numbers. -/
theorem partialStores : Obligations.PartialStores := by
  intro s ra rx addr p w pa hw ends upper lower
  have hupper : upper = withUpper w (Word.lower (s.reg ra)) := (withUpper_lower_eq_ofNat w (s.reg ra)).symm
  have hlower : lower = withLower w (Word.lower (s.reg ra)) := (withLower_lower_eq_ofNat w (s.reg ra)).symm
  rw [hupper, hlower]
  constructor
  case left =>
    intro hr h
    refine ⟨?srm, State.stores_storeByte hw 0 withUpper ra hr h, State.stores_storeByte hw 0 withLower ra hr h⟩
    rw [← throughMask_eq_xor]
    exact State.stores_srm hw hr h
  case right =>
    intro hp hr h
    exact ⟨State.stores_pointerThen_storeByte hw withUpper ra hp hr h,
      State.stores_pointerThen_storeByte hw withLower ra hp hr h⟩

end Sys2Proof.Certificates
end

section
/-! The flags of an addition and a subtraction as exact arithmetic, for any width, a fixed point overflow request as
part of a `State.after`, the sums on a register pair, and the statement DoubleAddSubtract. -/

namespace Sys2Proof.Machine

/-! ### The flags of a sum (46_int_addsub.md R530, R531) -/

/-- The carry bit stands beside the sign of the two's complement number (10_state.md R42). -/
theorem cpzn_eq_signCs {w : Nat} (c : Bool) (v : BitVec w) : cpzn c v = signCs c v.toInt := by
  rw [cpzn, pzn_eq_signCs, signCs, signCs]
  generalize v.toInt = i
  cases c
  case false => simp
  case true =>
    simp only [if_true]
    split_ifs <;> decide

/-- The exact result of an addition or subtraction on `w` bits is not representable, the condition of `overflow4`. -/
def Unrepresentable (w : Nat) (exact : Int) : Prop := exact < -2 ^ (w - 1) ∨ 2 ^ (w - 1) ≤ exact

section
variable {w : Nat} (a b : BitVec w)

theorem addFlags_overflow : (addFlags a b).overflow = true ↔ Unrepresentable w (a.toInt + b.toInt) := by
  have hmsb : (addFlags a b).overflow = a.saddOverflow b := by rw [BitVec.saddOverflow_eq]; rfl
  rw [hmsb, BitVec.saddOverflow, Bool.or_eq_true, decide_eq_true_iff, decide_eq_true_iff, Unrepresentable]
  exact or_comm

/-- The complement of `b` and 1 added to `a` is the difference. -/
theorem subFlags_value : (subFlags a b).value = a - b := by
  rw [BitVec.sub_eq_add_neg, BitVec.neg_eq_not_add, ← BitVec.add_assoc]
  rfl

theorem subFlags_overflow : (subFlags a b).overflow = true ↔ Unrepresentable w (a.toInt - b.toInt) := by
  have hmsb : (subFlags a b).overflow = a.ssubOverflow b := by
    rw [BitVec.ssubOverflow_eq, ← subFlags_value]
    simp only [subFlags]
    cases a.msb <;> cases b.msb <;> simp
  rw [hmsb, BitVec.ssubOverflow, Bool.or_eq_true, decide_eq_true_iff, decide_eq_true_iff, Unrepresentable]
  exact or_comm

/-- The carry of a subtraction is set exactly when there is no borrow. -/
theorem subFlags_carry : (subFlags a b).carry = decide (b.toNat ≤ a.toNat) := by
  have hb := b.isLt
  rw [subFlags, decide_eq_decide, BitVec.toNat_not]
  omega

end

/-! ### A request and what comes after it -/

/-- A fixed point overflow that is requested before the end of an instruction. -/
theorem State.requestIf_after {w : Nat} {o : Bool} {exact : Int} (s : State) (f : Reg → Word) (cs : BitVec 4)
    (ic : Word) (ho : o = true ↔ Unrepresentable w exact) :
    (s.requestIf o intFixedOverflow).after f cs 0 ic = s.after f cs (overflow4 w exact) ic := by
  have hmask : overflow4 w exact = if o then bitMask intFixedOverflow else 0 := if_congr ho.symm rfl rfl
  rw [hmask]
  cases o
  case false => rfl
  case true =>
    have hpi : s.pi ||| bitMask intFixedOverflow ||| 0 = s.pi ||| bitMask intFixedOverflow := BitVec.or_zero
    simp only [State.after, State.requestIf, State.request, State.requestMask, if_true, releaseHold_zero, hpi]

@[simp] theorem State.requestIf_reg (s : State) (b : Bool) (n : BitVec 4) : (s.requestIf b n).reg = s.reg := by
  funext r
  simp only [State.reg, State.requestIf_regs]

/-! ### Sums on a register pair (46_int_addsub.md R548, R565) -/

/-- The two halves of a double word, as numbers. -/
theorem set2_hi_lo (f : Reg → Word) (r : Reg) (v : Long) : set2 f r (Long.hi v) (Long.lo v) = setLong f r v := by
  rw [setLong, Long.hi, Long.lo, BitVec.extractLsb', BitVec.extractLsb', Nat.shiftRight_eq_div_pow, Nat.shiftRight_zero]

theorem State.turns_pair (s : State) (k : Nat) (r : Reg) : (s.turns k).pair r = s.pair r := by
  rw [State.pair, State.turns_reg, State.pair]

section
variable (s : State) (k : Nat) (ra : Reg) (x : Long) (len : Word)

theorem State.sumTo2_turns {r : Sum 32} {exact : Int} (ho : r.overflow = true ↔ Unrepresentable 32 exact) :
    (s.turns k).sumTo2 ra r len =
      (s.turns k).after (setLong s.reg ra r.value) (signCs r.carry r.value.toInt) (overflow4 32 exact)
        (s.ic + len) := by
  rw [State.sumTo2, State.finish2_eq_after, set2_hi_lo, cpzn_eq_signCs, State.requestIf_after _ _ _ _ ho,
    State.requestIf_reg, State.requestIf_ic, State.turns_reg, State.turns_ic]

theorem State.addTo2_turns :
    (s.turns k).addTo2 ra x len =
      (s.turns k).after (setLong s.reg ra (s.pair ra + x))
        (signCs (decide (4294967296 ≤ (s.pair ra).toNat + x.toNat)) (s.pair ra + x).toInt)
        (overflow4 32 ((s.pair ra).toInt + x.toInt)) (s.ic + len) := by
  rw [State.addTo2, State.turns_pair]
  exact State.sumTo2_turns s k ra len (addFlags_overflow _ _)

theorem State.subFrom2_turns :
    (s.turns k).subFrom2 ra x len =
      (s.turns k).after (setLong s.reg ra (s.pair ra - x))
        (signCs (decide (x.toNat ≤ (s.pair ra).toNat)) (s.pair ra - x).toInt)
        (overflow4 32 ((s.pair ra).toInt - x.toInt)) (s.ic + len) := by
  rw [State.subFrom2, State.turns_pair, State.sumTo2_turns s k ra len (subFlags_overflow _ _), subFlags_value,
    subFlags_carry]

end

end Sys2Proof.Machine

/-! ### The statement -/

namespace Sys2Proof.Certificates

open Sys2Proof.Machine

/-- Settles O17: the operand is a register pair or two words read in turn, then the one rule of each operation. -/
theorem doubleAddSubtract : Obligations.DoubleAddSubtract := by
  intro s ra rb rx addr hi lo d adds subs
  refine ⟨?dar, ?dsr, ?memory⟩
  case dar => exact congrArg _ (s.addTo2_turns 0 ra (s.pair rb) 1)
  case dsr => exact congrArg _ (s.subFrom2_turns 0 ra (s.pair rb) 1)
  case memory =>
    intro h0 h1
    have operand (k : Long → State → Out) : s.readThen2 (s.daLong addr rx) k = k (hi ++ lo) (s.turns 2) :=
      State.readThen2_turns (n := 0) h0 h1
    constructor
    · refine (operand fun v t => .next (t.addTo2 ra v 2)).trans ?_
      exact congrArg _ (s.addTo2_turns 2 ra (hi ++ lo) 2)
    · refine (operand fun v t => .next (t.subFrom2 ra v 2)).trans ?_
      exact congrArg _ (s.subFrom2_turns 2 ra (hi ++ lo) 2)

end Sys2Proof.Certificates
end

section
/-! Representability of exact products, the multiplies as a `State.after`, and the statement Multiplies. -/

namespace Sys2Proof.Machine

/-! ### Which products are representable (47_int_muldiv.md R590, R598) -/

theorem outOfRange_iff (w : Nat) (p : Int) : outOfRange w p = true ↔ Unrepresentable w p := by
  rw [outOfRange, decide_eq_true_iff, Unrepresentable, Int.sub_one_lt_iff]

/-- A 32-bit product of two words always fits; the extreme is 8000 × 8000. -/
theorem toInt_ofInt_mul_toInt (a b : Word) : (BitVec.ofInt 32 (a.toInt * b.toInt)).toInt = a.toInt * b.toInt := by
  have hlower : -2 ^ 31 ≤ a.toInt * b.toInt := le_trans (by decide) BitVec.le_toInt_mul_toInt
  have hupper : a.toInt * b.toInt < 2 ^ 31 := lt_of_le_of_lt BitVec.toInt_mul_toInt_le (by decide)
  exact BitVec.toInt_ofInt_eq_self (by decide) hlower hupper

/-! ### What a multiply leaves -/

section
variable (s : State) (k : Nat) (r : Reg) (len : Word)

theorem State.mulSingle_turns (x : Word) :
    (s.turns k).mulSingle r x len =
      let p := (s.reg r).toInt * x.toInt
      let v := BitVec.ofInt 16 p
      (s.turns k).after (set1 s.reg r v) (signCs false v.toInt) (overflow4 16 p) (s.ic + len) := by
  rw [State.mulSingle, State.finish_eq_after, State.requestIf_after _ _ _ _ (outOfRange_iff _ _),
    State.requestIf_reg, State.requestIf_ic, State.turns_reg, State.turns_ic, pzn_eq_signCs]

theorem State.mulTo_turns (x : Word) :
    (s.turns k).mulTo r x len =
      let v : Long := BitVec.ofInt 32 ((s.reg r).toInt * x.toInt)
      (s.turns k).after (setLong s.reg r v) (signCs false v.toInt) 0 (s.ic + len) := by
  rw [State.mulTo, State.finish2_eq_after, set2_hi_lo, State.turns_reg, State.turns_ic, pzn_eq_signCs]

theorem State.mulTo2_turns (x : Long) :
    (s.turns k).mulTo2 r x len =
      let p := (s.pair r).toInt * x.toInt
      let v : Long := BitVec.ofInt 32 p
      (s.turns k).after (setLong s.reg r v) (signCs false v.toInt) (overflow4 32 p) (s.ic + len) := by
  rw [State.mulTo2, State.turns_pair, State.finish2_eq_after, set2_hi_lo,
    State.requestIf_after _ _ _ _ (outOfRange_iff _ _), State.requestIf_reg, State.requestIf_ic, State.turns_reg,
    State.turns_ic, pzn_eq_signCs]

end

section
variable {s : State} {la : Word} (r : Reg) (len : Word)

/-- A multiply with a word of memory, the product in one register. -/
theorem State.readThen_mulSingle {x : Word} (h : s.read la = .ok x) :
    (s.readThen la fun x t => .next (t.mulSingle r x len)) =
      let p := (s.reg r).toInt * x.toInt
      let v := BitVec.ofInt 16 p
      .next ((s.turns 1).after (set1 s.reg r v) (signCs false v.toInt) (overflow4 16 p) (s.ic + len)) := by
  rw [State.readThen_ok h]
  exact congrArg _ (State.mulSingle_turns s 1 r len x)

/-- A multiply with a word of memory, the product in a register pair. -/
theorem State.readThen_mulTo {x : Word} (h : s.read la = .ok x) :
    (s.readThen la fun x t => .next (t.mulTo r x len)) =
      let v : Long := BitVec.ofInt 32 ((s.reg r).toInt * x.toInt)
      .next ((s.turns 1).after (setLong s.reg r v) (signCs false v.toInt) 0 (s.ic + len)) := by
  rw [State.readThen_ok h]
  exact congrArg _ (State.mulTo_turns s 1 r len x)

/-- A multiply with a double word of memory. -/
theorem State.readThen2_mulTo2 {hi lo : Word} (h0 : s.read la = .ok hi) (h1 : (s.turns 1).read (la + 1) = .ok lo) :
    (s.readThen2 la fun x t => .next (t.mulTo2 r x len)) =
      let p := (s.pair r).toInt * (Long.ofWords hi lo).toInt
      let v : Long := BitVec.ofInt 32 p
      .next ((s.turns 2).after (setLong s.reg r v) (signCs false v.toInt) (overflow4 32 p) (s.ic + len)) := by
  have hread := State.readThen2_turns (n := 0) (k := fun x t => .next (t.mulTo2 r x len)) h0 h1
  exact hread.trans (congrArg _ (State.mulTo2_turns s 2 r len (Long.ofWords hi lo)))

end

end Sys2Proof.Machine

/-! ### The statement -/

namespace Sys2Proof.Certificates

open Sys2Proof.Machine

/-- Settles O20: each addressing mode's operand, then the one rule of each product. -/
theorem multiplies : Obligations.Multiplies := by
  constructor
  case left =>
    intro s ra rb rx n addr v hi lo d muls mull
    refine ⟨?msr, ?misp, ?misn, ?msim, ?dmr, ?ms, ?dm⟩
    case msr => exact congrArg _ (s.mulSingle_turns 0 ra 1 (s.reg rb))
    case misp => exact congrArg _ (s.mulSingle_turns 0 ra 1 (shortPositive n))
    case misn =>
      rw [← shortNegative_eq_ofInt]
      exact congrArg _ (s.mulSingle_turns 0 ra 1 (shortNegative n))
    case msim => exact congrArg _ (s.mulSingle_turns 0 ra 2 v)
    case dmr => exact congrArg _ (s.mulTo2_turns 0 ra 1 (s.pair rb))
    case ms => exact State.readThen_mulSingle ra 2
    case dm => exact State.readThen2_mulTo2 ra 2
  case right =>
    intro s ra rb br rx addr v dspl completes
    have product (r : Reg) (x : Word) := toInt_ofInt_mul_toInt (s.reg r) x
    refine ⟨?mr, ?mim, ?mb, ?mbx, ?m⟩
    case mr => exact ⟨product ra (s.reg rb), congrArg _ (s.mulTo_turns 0 ra 1 (s.reg rb))⟩
    case mim => exact ⟨product ra v, congrArg _ (s.mulTo_turns 0 ra 2 v)⟩
    case mb => exact fun h => ⟨product 2 v, State.readThen_mulTo accSingle 1 h⟩
    case mbx => exact fun h => ⟨product 2 v, State.readThen_mulTo accSingle 1 h⟩
    case m => exact fun h => ⟨product ra v, State.readThen_mulTo ra 2 h⟩

end Sys2Proof.Certificates
end

section
/-! The logical instructions by the Bool function of each bit, the exchanges, and the statement LogicInstructions. -/

namespace Sys2Proof.Machine

/-! ### Operations on words that act on each bit by itself (49_logic_compare_misc.md R730, R738, R746, R752) -/

/-- `op` is the Bool function `f` on the bits of the same place. -/
def Bitwise (f : Bool → Bool → Bool) (op : Word → Word → Word) : Prop :=
  ∀ (a b : Word) (k : Nat), k < 16 → (op a b).getLsbD k = f (a.getLsbD k) (b.getLsbD k)

theorem bitwise_or : Bitwise or fun a b => a ||| b := fun _ _ _ _ => BitVec.getLsbD_or

theorem bitwise_and : Bitwise and fun a b => a &&& b := fun _ _ _ _ => BitVec.getLsbD_and

theorem bitwise_xor : Bitwise xor fun a b => a ^^^ b := fun _ _ _ _ => BitVec.getLsbD_xor

theorem bitwise_nand : Bitwise (fun a b => !(a && b)) fun a b => ~~~(a &&& b) := by
  intro a b k hk
  rw [BitVec.getLsbD_not, decide_eq_true hk, Bool.true_and, BitVec.getLsbD_and]

/-! ### What a logical instruction leaves -/

/-- A logical result ends its instruction as a loaded word does. -/
theorem State.logicTo_eq_loadTo (s : State) (r : Reg) (v len : Word) : s.logicTo r v len = s.loadTo r v len := rfl

section
variable {f : Bool → Bool → Bool} {op : Word → Word → Word} {s : State} {r : Reg} {x y : Word} (hop : Bitwise f op)
  (len : Word)
include hop

/-- A word whose bits are those of the result is the result. -/
theorem Bitwise.eq_of_bits {a : Word} (hy : ∀ k, k < 16 → y.getLsbD k = f (a.getLsbD k) (x.getLsbD k)) : op a x = y :=
  BitVec.eq_of_getLsbD_eq fun k hk => (hop a x k hk).trans (hy k hk).symm

variable (hy : ∀ k, k < 16 → y.getLsbD k = f ((s.reg r).getLsbD k) (x.getLsbD k))
include hy

theorem Bitwise.logicTo_turns (k : Nat) :
    (s.turns k).logicTo r (op ((s.turns k).reg r) x) len =
      (s.turns k).after (set1 s.reg r y) (signCs false y.toInt) 0 (s.ic + len) := by
  rw [State.turns_reg, hop.eq_of_bits hy, State.logicTo_eq_loadTo, State.loadTo_turns]

/-- A logical instruction with an operand that needs no reference. -/
theorem Bitwise.next_logicTo :
    (.next (s.logicTo r (op (s.reg r) x) len) : Out) =
      .next ((s.turns 0).after (set1 s.reg r y) (signCs false y.toInt) 0 (s.ic + len)) :=
  congrArg _ (hop.logicTo_turns len hy 0)

/-- A logical instruction with a word of memory. -/
theorem Bitwise.readThen_logicTo {la : Word} (h : s.read la = .ok x) :
    (s.readThen la fun x t => .next (t.logicTo r (op (t.reg r) x) len)) =
      .next ((s.turns 1).after (set1 s.reg r y) (signCs false y.toInt) 0 (s.ic + len)) := by
  rw [State.readThen_ok h]
  exact congrArg _ (hop.logicTo_turns len hy 1)

end

/-! ### The exchanges (49_logic_compare_misc.md R758, R759) -/

/-- A word with its bytes exchanged, as a number. -/
theorem lower_append_upper_eq_ofNat (w : Word) :
    (Word.lower w ++ Word.upper w : BitVec (8 + 8)) = BitVec.ofNat 16 (w.toNat % 256 * 256 + w.toNat / 256) := by
  apply BitVec.eq_of_toNat_eq
  rw [BitVec.toNat_append, ← Nat.shiftLeft_add_eq_or_of_lt (Word.upper w).isLt, toNat_lower, toNat_upper,
    Nat.shiftLeft_eq, BitVec.toNat_ofNat]
  omega

/-- Two registers written one after the other, the second one possibly the first. -/
theorem State.setReg_finish_eq_after (s : State) (r q : Reg) (v w : Word) (cs : BitVec 4) (len : Word) :
    (s.setReg r v).finish q w cs len = s.after (set1 (set1 s.reg r v) q w) cs 0 (s.ic + len) := by
  rw [State.finish_eq_after, State.after_setReg, State.reg_setReg, State.setReg_ic]

theorem execXbr_eq_after (ra : Reg) (s : State) :
    execXbr ra s =
      let b := BitVec.ofNat 16 ((s.reg ra).toNat % 256 * 256 + (s.reg ra).toNat / 256)
      .next (s.after (set1 s.reg ra b) (signCs false b.toInt) 0 (s.ic + 1)) := by
  rw [execXbr, lower_append_upper_eq_ofNat, State.logicTo_eq_loadTo]
  exact congrArg _ (s.loadTo_turns 0 ra _ 1)

theorem execXwr_eq_after (ra rb : Reg) (s : State) :
    execXwr ra rb s =
      .next (s.after (set1 (set1 s.reg ra (s.reg rb)) rb (s.reg ra)) (signCs false (s.reg rb).toInt) 0 (s.ic + 1)) := by
  rw [← pzn_eq_signCs]
  exact congrArg _ (s.setReg_finish_eq_after ra rb (s.reg rb) (s.reg ra) (pzn (s.reg rb)) 1)

end Sys2Proof.Machine

/-! ### The statement -/

namespace Sys2Proof.Certificates

open Sys2Proof.Machine

/-- Settles O30: each operation's Bool function, then the one rule of an operand at hand and the one of a word read. -/
theorem logicInstructions : Obligations.LogicInstructions := by
  intro s ra rb br rx addr v dspl writes nand b
  refine ⟨?xbr, ?xwr, ?orr, ?andr, ?xorr, ?nr, ?orim, ?andm, ?xorm, ?nim, ?base, ?indexed, ?long⟩
  case xbr => exact execXbr_eq_after ra s
  case xwr => exact execXwr_eq_after ra rb s
  case orr => exact fun _ hy => bitwise_or.next_logicTo 1 hy
  case andr => exact fun _ hy => bitwise_and.next_logicTo 1 hy
  case xorr => exact fun _ hy => bitwise_xor.next_logicTo 1 hy
  case nr => exact fun _ hy => bitwise_nand.next_logicTo 1 hy
  case orim => exact fun _ hy => bitwise_or.next_logicTo 2 hy
  case andm => exact fun _ hy => bitwise_and.next_logicTo 2 hy
  case xorm => exact fun _ hy => bitwise_xor.next_logicTo 2 hy
  case nim => exact fun _ hy => bitwise_nand.next_logicTo 2 hy
  case base =>
    exact fun h => ⟨fun _ hy => bitwise_or.readThen_logicTo 1 hy h, fun _ hy => bitwise_and.readThen_logicTo 1 hy h⟩
  case indexed =>
    exact fun h => ⟨fun _ hy => bitwise_or.readThen_logicTo 1 hy h, fun _ hy => bitwise_and.readThen_logicTo 1 hy h⟩
  case long =>
    intro h
    refine ⟨?or, ?and, ?xor, ?n⟩
    case or => exact fun _ hy => bitwise_or.readThen_logicTo 2 hy h
    case and => exact fun _ hy => bitwise_and.readThen_logicTo 2 hy h
    case xor => exact fun _ hy => bitwise_xor.readThen_logicTo 2 hy h
    case n => exact fun _ hy => bitwise_nand.readThen_logicTo 2 hy h

end Sys2Proof.Certificates
end

section
/-! The condition status of a comparison as the sign of the exact difference, the compares as a `State.after`, and the
statement IntegerCompares. -/

namespace Sys2Proof.Machine

/-! ### The order of two numbers (49_logic_compare_misc.md R762) -/

/-- Two numbers compare as their exact difference, which cannot overflow, compares with zero. -/
theorem compareCs_eq_signCs (a b : Int) : compareCs a b = signCs false (a - b) := by
  simp [compareCs, signCs, Int.sub_eq_zero]

theorem toInt_shortPositive {n : Nat} (h16 : n ≤ 16) : (shortPositive n).toInt = n := by
  rw [shortPositive, ← BitVec.ofInt_natCast]
  exact BitVec.toInt_ofInt_eq_self (by decide) (by omega) (by omega)

theorem toInt_shortNegative {n : Nat} (h16 : n ≤ 16) : (shortNegative n).toInt = -n := by
  rw [shortNegative_eq_ofInt]
  exact BitVec.toInt_ofInt_eq_self (by decide) (by omega) (by omega)

/-! ### What a compare leaves -/

theorem State.finishCs_turns (s : State) (k : Nat) (cs : BitVec 4) (len : Word) :
    (s.turns k).finishCs cs len = (s.turns k).after s.reg cs 0 (s.ic + len) := by
  rw [State.finishCs_eq_after, State.turns_reg, State.turns_ic]

theorem State.compareTo_turns (s : State) (k : Nat) (r : Reg) (x len : Word) :
    (s.turns k).compareTo r x len =
      (s.turns k).after s.reg (signCs false ((s.reg r).toInt - x.toInt)) 0 (s.ic + len) := by
  rw [State.compareTo, State.finishCs_turns, State.turns_reg, compareCs_eq_signCs]

theorem State.compareTo2_turns (s : State) (k : Nat) (r : Reg) (x : Long) (len : Word) :
    (s.turns k).compareTo2 r x len =
      (s.turns k).after s.reg (signCs false ((s.pair r).toInt - x.toInt)) 0 (s.ic + len) := by
  rw [State.compareTo2, State.finishCs_turns, State.turns_pair, compareCs_eq_signCs]

section
variable {s : State}

/-- A compare with a word of memory. -/
theorem State.readThen_compareTo {la x : Word} (r : Reg) (len : Word) (h : s.read la = .ok x) :
    (s.readThen la fun x t => .next (t.compareTo r x len)) =
      .next ((s.turns 1).after s.reg (signCs false ((s.reg r).toInt - x.toInt)) 0 (s.ic + len)) := by
  rw [State.readThen_ok h]
  exact congrArg _ (State.compareTo_turns s 1 r x len)

/-- A compare with a double word of memory. -/
theorem State.readThen2_compareTo2 {la hi lo : Word} (r : Reg) (len : Word) (h0 : s.read la = .ok hi)
    (h1 : (s.turns 1).read (la + 1) = .ok lo) :
    (s.readThen2 la fun x t => .next (t.compareTo2 r x len)) =
      .next ((s.turns 2).after s.reg (signCs false ((s.pair r).toInt - (Long.ofWords hi lo).toInt)) 0
        (s.ic + len)) := by
  rw [← State.compareTo2_turns]
  exact State.readThen2_turns (n := 0) h0 h1

/-- A compare with two limits in memory, the lower one first (49_logic_compare_misc.md R772). -/
theorem execCbl_eq_after {ra rx : Reg} {addr lo hi : Word} (h0 : s.read (s.daLong addr rx) = .ok lo)
    (h1 : (s.turns 1).read (s.daLong addr rx + 1) = .ok hi) :
    execCbl ra rx addr s =
      .next ((s.turns 2).after s.reg (limitsCs (s.reg ra).toInt lo.toInt hi.toInt) 0 (s.ic + 2)) := by
  have upper := State.readThen_turns (n := 1)
    (k := fun hi t => .next (t.finishCs (limitsCs (t.reg ra).toInt lo.toInt hi.toInt) 2)) h1
  rw [State.finishCs_turns, State.turns_reg] at upper
  rw [execCbl, State.readThen_ok h0, State.turn_daLong]
  exact upper

end

end Sys2Proof.Machine

/-! ### The statement -/

namespace Sys2Proof.Certificates

open Sys2Proof.Machine

/-- Settles O31: each addressing mode's operand, then the one compare rule; CBL by its two limits. -/
theorem integerCompares : Obligations.IntegerCompares := by
  intro s ra rb br rx n addr v u dspl compares x xx
  refine ⟨?cr, ?cim, ?dcr, ?short, ?cb, ?cbx, ?c, ?twoWords⟩
  case cr => exact congrArg _ (s.compareTo_turns 0 ra (s.reg rb) 1)
  case cim => exact congrArg _ (s.compareTo_turns 0 ra v 2)
  case dcr => exact congrArg _ (s.compareTo2_turns 0 ra (s.pair rb) 1)
  case short =>
    intro _ h16
    rw [← toInt_shortNegative h16, ← toInt_shortPositive h16]
    exact ⟨congrArg _ (s.compareTo_turns 0 ra (shortPositive n) 1),
      congrArg _ (s.compareTo_turns 0 ra (shortNegative n) 1)⟩
  case cb => exact State.readThen_compareTo accSingle 1
  case cbx => exact State.readThen_compareTo accSingle 1
  case c => exact State.readThen_compareTo ra 2
  case twoWords => exact fun h0 h1 => ⟨State.readThen2_compareTo2 ra 2 h0 h1, execCbl_eq_after h0 h1⟩

end Sys2Proof.Certificates
end

section
/-! What the decoder sees of the words the encoder writes: the fields of each format, the column of the opcode table
that
an opcode byte selects, and the statement DecodeOfEncode. -/

namespace Sys2Proof

/-! ### Bytes and words (20_memory.md R106) -/

theorem Word.upper_append_lower (w : Word) : (Word.upper w ++ Word.lower w : BitVec (8 + 8)) = w :=
  (BitVec.extractLsb'_append_extractLsb'_eq_extractLsb' rfl).trans BitVec.extractLsb'_eq_self

theorem wordsOfBytes_bytesOfWords : ∀ ws : List Word, wordsOfBytes (bytesOfWords ws) = ws
  | [] => rfl
  | w :: rest => congrArg₂ List.cons (Word.upper_append_lower w) (wordsOfBytes_bytesOfWords rest)

/-! ### The fields of each format (30_encoding.md R161 to R167) -/

section
variable (op : BitVec 8) (f1 f2 : BitVec 4)

theorem rr_eq_append : rr op f1 f2 = (op ++ (f1 ++ f2) : BitVec (8 + (4 + 4))) :=
  BitVec.append_assoc

theorem extractLsb'_rr_opcode {start len : Nat} : (rr op f1 f2).extractLsb' (8 + start) len =
    op.extractLsb' start len := by
  rw [rr_eq_append, BitVec.extractLsb'_append_eq_of_le (by omega)]
  congr 1
  omega

theorem hiNibble_rr : hiNibble (rr op f1 f2) = op.extractLsb' 4 4 := extractLsb'_rr_opcode op f1 f2 (start := 4)

theorem loNibble_rr : loNibble (rr op f1 f2) = op.extractLsb' 0 4 := extractLsb'_rr_opcode op f1 f2 (start := 0)

theorem field1_rr : field1 (rr op f1 f2) = f1 :=
  calc (op ++ f1 ++ f2 : BitVec (8 + 4 + 4)).extractLsb' 4 4
    _ = (op ++ f1).extractLsb' 0 4 := BitVec.extractLsb'_append_eq_of_le (by decide)
    _ = f1 := BitVec.extractLsb'_append_eq_right

theorem field2_rr : field2 (rr op f1 f2) = f2 := BitVec.extractLsb'_append_eq_right

end

/-- A byte is made of its two halves. -/
theorem append_nibbles (d : BitVec 8) : (d.extractLsb' 4 4 ++ d.extractLsb' 0 4 : BitVec (4 + 4)) = d :=
  (BitVec.extractLsb'_append_extractLsb'_eq_extractLsb' rfl).trans BitVec.extractLsb'_eq_self

/-- Formats S and ICR have the two fields of RR side by side. -/
theorem special_eq_rr (op d : BitVec 8) : special op d = rr op (d.extractLsb' 4 4) (d.extractLsb' 0 4) := by
  rw [rr_eq_append, append_nibbles]
  rfl

section
variable (op6 : BitVec 6) (br : Reg) (d : BitVec 8)

theorem based_eq_append : based op6 br d = (op6 ++ (br.extractLsb' 0 2 ++ d) : BitVec (6 + (2 + 8))) :=
  BitVec.append_assoc

theorem extractLsb'_based_opcode {start len : Nat} :
    (based op6 br d).extractLsb' (10 + start) len = op6.extractLsb' start len := by
  rw [based_eq_append, BitVec.extractLsb'_append_eq_of_le (by omega)]
  congr 1
  omega

theorem hiNibble_based : hiNibble (based op6 br d) = op6.extractLsb' 2 4 :=
  extractLsb'_based_opcode op6 br d (start := 2)

theorem extractLsb'_based_base : (based op6 br d).extractLsb' 8 2 = br.extractLsb' 0 2 :=
  calc (op6 ++ br.extractLsb' 0 2 ++ d : BitVec (6 + 2 + 8)).extractLsb' 8 2
    _ = (op6 ++ br.extractLsb' 0 2).extractLsb' 0 2 := BitVec.extractLsb'_append_eq_of_le (by decide)
    _ = br.extractLsb' 0 2 := BitVec.extractLsb'_append_eq_right

theorem extractLsb'_based_low : (based op6 br d).extractLsb' 0 8 = d := BitVec.extractLsb'_append_eq_right

end

theorem baseReg_extractLsb' : ∀ {br : Reg}, Reg.isBase br = true → baseReg (br.extractLsb' 0 2) = br := by
  decide

theorem isBase_baseReg : ∀ b : BitVec 2, Reg.isBase (baseReg b) = true ∧ (baseReg b).extractLsb' 0 2 = b := by
  decide

/-- A count and the field that holds it (30_encoding.md R181). -/
theorem fieldCount_countField {n : Nat} (h : countOk n = true) : fieldCount (countField n) = n := by
  have hn : 1 ≤ n ∧ n ≤ 16 := of_decide_eq_true h
  rw [fieldCount, countField, BitVec.toNat_ofNat]
  omega

theorem countOk_fieldCount (f : BitVec 4) : countOk (fieldCount f) = true ∧ countField (fieldCount f) = f := by
  revert f
  decide

/-! ### The column of the opcode table (30_encoding.md R190 to R192) -/

/-- The columns 4 to F of Table X but the base relative indexed group, by the nibbles of the opcode byte. -/
def decodeColumn (hi lo f1 f2 : BitVec 4) : Option Partial :=
  match hi with
  | 0x4#4 => decodeExtension lo f1 f2
  | 0x5#4 => decodeBit lo f1 f2
  | 0x6#4 => decodeShift lo f1 f2
  | 0x7#4 => decodeJump lo f1 f2
  | 0x8#4 => decodeLoad lo f1 f2
  | 0x9#4 => decodeStore lo f1 f2
  | 0xA#4 => decodeAdd lo f1 f2
  | 0xB#4 => decodeSub lo f1 f2
  | 0xC#4 => decodeMult lo f1 f2
  | 0xD#4 => decodeDivide lo f1 f2
  | 0xE#4 => decodeLogical lo f1 f2
  | 0xF#4 => decodeCompare lo f1 f2
  | _ => none

section
variable {w0 : Word}

/-- Opcode bytes 44 to FF are decoded by column. -/
theorem decodeFirst_eq_column (h4 : 4 ≤ (hiNibble w0).toNat) (hx : hiNibble w0 = 4#4 → w0.extractLsb' 10 2 ≠ 0#2) :
    decodeFirst w0 = decodeColumn (hiNibble w0) (loNibble w0) (field1 w0) (field2 w0) := by
  unfold decodeFirst decodeColumn
  generalize hiNibble w0 = hi at h4 hx
  dsimp only
  split
  case h_5 => exact if_neg (hx rfl)
  case h_1 | h_2 | h_3 | h_4 => exact absurd h4 (by decide)
  case h_17 =>
    exfalso; clear hx
    revert hi
    decide
  all_goals rfl

/-- Opcode bytes 00 to 3F are decoded by their 6-bit opcode. -/
theorem decodeFirst_eq_base (h4 : (hiNibble w0).toNat < 4) :
    decodeFirst w0 = decodeBase (w0.extractLsb' 10 6) (baseReg (w0.extractLsb' 8 2)) (w0.extractLsb' 0 8) := by
  unfold decodeFirst
  generalize hiNibble w0 = hi at h4
  dsimp only
  split
  case h_1 | h_2 | h_3 | h_4 => rfl
  case h_17 =>
    exfalso
    revert hi
    decide
  all_goals exact absurd h4 (by decide)

/-- Opcode bytes 40 to 43 are decoded by the opcode extension in the first field. -/
theorem decodeFirst_eq_indexed (h4 : hiNibble w0 = 4#4) (hx : w0.extractLsb' 10 2 = 0#2) :
    decodeFirst w0 = decodeBaseIndexed (field1 w0) (baseReg (w0.extractLsb' 8 2)) (field2 w0) := by
  unfold decodeFirst
  rw [h4]
  exact if_pos hx

end

theorem decodeFirst_rr {op : BitVec 8} (f1 f2 : BitVec 4) (hop : 0x44 ≤ op.toNat) :
    decodeFirst (rr op f1 f2) = decodeColumn (op.extractLsb' 4 4) (op.extractLsb' 0 4) f1 f2 := by
  have h4 : 4 ≤ (hiNibble (rr op f1 f2)).toNat := by
    rw [hiNibble_rr, BitVec.extractLsb'_toNat, Nat.shiftRight_eq_div_pow]
    omega
  have hx : hiNibble (rr op f1 f2) = 4#4 → (rr op f1 f2).extractLsb' 10 2 ≠ 0#2 := by
    rw [hiNibble_rr, extractLsb'_rr_opcode (start := 2)]
    clear h4
    revert op
    decide
  rw [decodeFirst_eq_column h4 hx, hiNibble_rr, loNibble_rr, field1_rr, field2_rr]

theorem decodeFirst_special {op : BitVec 8} (d : BitVec 8) (hop : 0x44 ≤ op.toNat) :
    decodeFirst (special op d) =
      decodeColumn (op.extractLsb' 4 4) (op.extractLsb' 0 4) (d.extractLsb' 4 4) (d.extractLsb' 0 4) := by
  rw [special_eq_rr, decodeFirst_rr _ _ hop]

theorem decodeFirst_based {op6 : BitVec 6} {br : Reg} (d : BitVec 8) (hop : op6.toNat < 16)
    (hbr : Reg.isBase br = true) : decodeFirst (based op6 br d) = decodeBase op6 br d := by
  have h4 : (hiNibble (based op6 br d)).toNat < 4 := by
    rw [hiNibble_based, BitVec.extractLsb'_toNat, Nat.shiftRight_eq_div_pow]
    omega
  have hop6 : (based op6 br d).extractLsb' 10 6 = op6 :=
    (extractLsb'_based_opcode op6 br d (start := 0)).trans BitVec.extractLsb'_eq_self
  rw [decodeFirst_eq_base h4, hop6, extractLsb'_based_base, extractLsb'_based_low, baseReg_extractLsb' hbr]

theorem decodeFirst_based_indexed {br : Reg} (opex rx : BitVec 4) (hbr : Reg.isBase br = true) :
    decodeFirst (based 0x10 br (opex ++ rx)) = decodeBaseIndexed opex br rx := by
  have h1 : field1 (based 0x10 br (opex ++ rx)) = opex :=
    calc (0x10#6 ++ br.extractLsb' 0 2 ++ (opex ++ rx) : BitVec (6 + 2 + 8)).extractLsb' 4 4
      _ = (opex ++ rx : BitVec (4 + 4)).extractLsb' 4 4 := BitVec.extractLsb'_append_eq_of_add_le (by decide)
      _ = opex := BitVec.extractLsb'_append_eq_left
  have h2 : field2 (based 0x10 br (opex ++ rx)) = rx :=
    calc (0x10#6 ++ br.extractLsb' 0 2 ++ (opex ++ rx) : BitVec (6 + 2 + 8)).extractLsb' 0 4
      _ = (opex ++ rx : BitVec (4 + 4)).extractLsb' 0 4 := BitVec.extractLsb'_append_eq_of_add_le (by decide)
      _ = rx := BitVec.extractLsb'_append_eq_right
  rw [decodeFirst_eq_indexed (hiNibble_based _ _ _) (extractLsb'_based_opcode _ _ _ (start := 0)), h1, h2,
    extractLsb'_based_base, baseReg_extractLsb' hbr]

/-! ### Whole instructions -/

section
variable {w0 : Word} (rest : List Word)

theorem decodeWords_whole {i : Instr} (h : decodeFirst w0 = some (.whole i)) :
    decodeWords (w0 :: rest) = .ok (i, rest) := by
  rw [decodeWords, h]

theorem decodeWords_needs {k : Word → Instr} (w1 : Word) (h : decodeFirst w0 = some (.needs k)) :
    decodeWords (w0 :: w1 :: rest) = .ok (k w1, rest) := by
  rw [decodeWords, h]

end

/-- Each format by its rule: two words, one word, a count in a field, an 8-bit field, a base register. -/
theorem decodeWords_encode (i : Instr) (rest : List Word) (hwf : wellFormed i = true) :
    decodeWords (encode i ++ rest) = .ok (i, rest) := by
  cases i
  case xio | vio | sb | sbi | rb | rbi | tb | tbi | tsb | jc | jci | js | soj | lst | lsti | sjs | l | li |
    lim | dl | dli | lm | efl | lub | llb | lubi | llbi | st | sti | stc | stci | dst | dsti | srm | stm |
    efst | stub | stlb | subi | slbi | a | aim | da | s | sim | ds | ms | msim | m | mim | dm | dv | dvim | d |
    dim | dd | fa | efa | fs | efs | fm | efm | fd | efd | fc | efc | or | orim | and | andm | xor | xorm | n |
    nim | c | cim | cbl | dc =>
    exact decodeWords_needs rest _ (decodeFirst_rr _ _ (by decide))
  case sbr | rbr | tbr | svbr | rvbr | tvbr | slr | sar | scr | dslr | dsar | dscr | bex | urs | lr | dlr |
    popm | mov | pshm | ar | abs | dabs | dar | sr | neg | dneg | dsr | msr | mr | dmr | dvr | dr | ddr | far |
    efar | fsr | efsr | fabs | fneg | fmr | efmr | fdr | efdr | fix | flt | efix | eflt | fcr | efcr | orr |
    andr | xorr | nr | xbr | xwr | cr | dcr =>
    exact decodeWords_whole rest (decodeFirst_rr _ _ (by decide))
  case sll | srl | sra | slc | dsll | dsrl | dsra | dslc | lisp | lisn | aisp | sisp | misp | misn | disp |
    disn | cisp | cisn =>
    refine (decodeWords_whole rest (decodeFirst_rr _ _ (by decide))).trans ?_
    rw [fieldCount_countField hwf]
  case incm | decm =>
    refine (decodeWords_needs rest _ (decodeFirst_rr _ _ (by decide))).trans ?_
    rw [fieldCount_countField hwf]
  case br | bez | blt | ble | bgt | bnz | bge | builtin =>
    refine (decodeWords_whole rest (decodeFirst_special _ (by decide))).trans ?_
    rw [append_nibbles]
  case nop | bpt =>
    exact decodeWords_whole rest (decodeFirst_special _ (by decide))
  case lb | dlb | stb | dstb | ab | sbb | mb | db | fab | fsb | fmb | fdb | fcb | orb | andb | cb =>
    exact decodeWords_whole rest (decodeFirst_based _ (by decide) hwf)
  case lbx | dlbx | stbx | dstx | abx | sbbx | mbx | dbx | fabx | fsbx | fmbx | fdbx | fcbx | orbx | andx | cbx =>
    exact decodeWords_whole rest (decodeFirst_based_indexed _ _ hwf)

end Sys2Proof

/-! ### The statement -/

namespace Sys2Proof.Certificates

/-- Settles O33: the words by the format of the instruction, the bytes by the words they make up. -/
theorem decodeOfEncode : Obligations.DecodeOfEncode := by
  intro i rest hwf
  have hwords := decodeWords_encode i rest hwf
  refine ⟨?_, hwords⟩
  rw [decode, wordsOfBytes_bytesOfWords]
  exact hwords

end Sys2Proof.Certificates
end

section
/-! What the end of each rule changes, relations between states that every reference and store respects, and from
them what
each instruction that is not about control state may change. -/

namespace Sys2Proof.Machine

/-! ### The ends of the rules -/

section
variable (s : State) (ra rb : Reg) (v len : Word) (u : Long)

theorem Local.sumTo (r : Sum 16) : Local s (s.sumTo ra r len) :=
  (Local.requestIf s _ _).trans (Local.finish _ _ _ _ _)

theorem Local.sumTo2 (r : Sum 32) : Local s (s.sumTo2 ra r len) :=
  (Local.requestIf s _ _).trans (Local.finish2 _ _ _ _ _)

theorem Local.negateTo (b : Bool) : Local s (s.negateTo ra b v) :=
  (Local.requestIf s _ _).trans (Local.finish _ _ _ _ _)

theorem Local.negateTo2 (b : Bool) : Local s (s.negateTo2 ra b u) :=
  (Local.requestIf s _ _).trans (Local.finish2 _ _ _ _ _)

theorem Local.mulSingle : Local s (s.mulSingle ra v len) :=
  (Local.requestIf s _ _).trans (Local.finish _ _ _ _ _)

theorem Local.mulTo2 : Local s (s.mulTo2 ra u len) :=
  (Local.requestIf s _ _).trans (Local.finish2 _ _ _ _ _)

theorem Local.divideOverflow : Local s (s.divideOverflow ra len) :=
  ((Local.request s _).trans (Local.finish2 _ _ _ _ _)).trans (Local.spend _ _)

theorem Local.quotientTo (q r : Word) : Local s (s.quotientTo ra q r len) :=
  (Local.setReg s ra q).trans (Local.finish _ _ _ _ _)

/-- A choice between two ends. -/
theorem Local.ite {p : Prop} [Decidable p] {a b : State} (ha : Local s a) (hb : Local s b) :
    Local s (if p then a else b) := by
  split
  · exact ha
  · exact hb

theorem Local.divSingle : Local s (s.divSingle ra v len) :=
  Local.ite s (Local.divideOverflow s ra len) (Local.quotientTo s ra len _ _)

theorem Local.divTo : Local s (s.divTo ra v len) :=
  Local.ite s (Local.divideOverflow s ra len) (Local.quotientTo s ra len _ _)

theorem Local.divTo2 : Local s (s.divTo2 ra u len) :=
  Local.ite s (Local.divideOverflow s ra len) (Local.finish2 s ra _ _ len)

theorem Local.shiftVar (left right : Word → Nat → Word) (o : Bool) : Local s (s.shiftVar left right o ra rb) :=
  (Local.requestIf s _ _).trans (Local.finish _ _ _ _ _)

theorem Local.shiftVar2 (left right : Long → Nat → Long) (o : Bool) : Local s (s.shiftVar2 left right o ra rb) :=
  (Local.requestIf s _ _).trans (Local.finish2 _ _ _ _ _)

theorem Local.requestFloat (r : FloatResult) : Local s (s.requestFloat r) :=
  (Local.requestIf s _ _).trans (Local.requestIf _ _ _)

theorem Local.storeFloat (r : FloatResult) : Local s (s.storeFloat ra r len) :=
  (Local.requestFloat s r).trans (Local.finish2 _ _ _ _ _)

theorem Local.storeExtended (r : FloatResult) : Local s (s.storeExtended ra r len) :=
  (Local.requestFloat s r).trans (Local.finish3 _ _ _ _ _)

theorem Local.anyFloat (b : Bool) : Local s (s.anyFloat ra b len) :=
  (((Local.requestIf s _ _).trans (Local.requestIf _ _ _)).trans (Local.finish2 _ _ _ _ _)).trans (Local.spend _ _)

theorem Local.anyExtended : Local s (s.anyExtended ra len) :=
  (((Local.requestIf s _ _).trans (Local.requestIf _ _ _)).trans (Local.finish3 _ _ _ _ _)).trans (Local.spend _ _)

theorem Local.float (op : FloatOp) : Local s (s.float op ra u len) :=
  Local.ite s (Local.storeFloat s ra len _) (Local.anyFloat s ra len true)

theorem Local.extended (op : FloatOp) (x : Ext) : Local s (s.extended op ra x len) :=
  Local.ite s (Local.storeExtended s ra len _) (Local.anyExtended s ra len)

theorem Local.floatUnary (f : Unpacked → FloatResult) (b : Bool) : Local s (s.floatUnary f b ra rb) :=
  Local.ite s (Local.storeFloat s ra 1 _) (Local.anyFloat s ra 1 b)

theorem Local.floatCompare : Local s (s.floatCompare ra u len) :=
  Local.ite s (Local.finishCs s _ len) ((Local.finishCs s _ len).trans (Local.spend _ _))

theorem Local.extendedCompare (x : Ext) : Local s (s.extendedCompare ra x len) :=
  Local.ite s (Local.finishCs s _ len) ((Local.finishCs s _ len).trans (Local.spend _ _))

theorem Local.branchOn (m : BitVec 4) (d : BitVec 8) : Local s (s.branchOn m d) :=
  Local.ite s (Local.setIc s _) (Local.advance s 1)

theorem Local.setReg_advance : Local s ((s.setReg ra v).advance len) :=
  (Local.setReg s ra v).trans (Local.advance _ len)

theorem Local.setReg_setIc (ic : Word) : Local s ((s.setReg ra v).setIc ic) :=
  (Local.setReg s ra v).trans (Local.setIc _ ic)

theorem Local.moveStep : Local s (s.moveStep ra rb) :=
  Local.ite s (((Local.setReg s _ _).trans (Local.setReg _ _ _)).trans (Local.spend _ _))
    (((Local.setReg s _ _).trans (Local.setReg _ _ _)).trans (Local.setReg _ _ _))

/-- The address of a MOV that `moveEnd` keeps is none of what `Local` speaks of. -/
theorem Local.moveEnd : Local s (s.moveEnd ra) :=
  Local.ite s ⟨rfl, rfl, rfl, rfl, rfl, rfl, rfl, rfl, rfl, rfl, fun _ => id, id, id⟩ (Local.refl s)

end

/-! ### Relations that references and stores respect -/

/-- A relation between a state and a later one that holds of what any reference, store or fault leaves. -/
structure Frame (R : State → State → Prop) : Prop where
  trans : ∀ {a b c : State}, R a b → R b c → R a c
  ofLocal : ∀ {a b : State}, Local a b → R a b

theorem Frame.local : Frame Local := ⟨Local.trans, id⟩

section
variable {R : State → State → Prop} (F : Frame R) {s : State}
include F

/-- What is respected from a later state on is respected from an earlier one on. -/
theorem Frame.holds_trans {t : State} {o : Out} (h : R s t) (ho : Holds (R t) o) : Holds (R s) o :=
  Holds.mono (fun _ g => F.trans h g) ho

theorem Frame.stop {e : Stop} (h : e.ok) : Holds (R s) (s.stop e) :=
  Holds.mono (fun _ => F.ofLocal) (Holds.stop h)

theorem Frame.readThen {la : Word} {k : Word → State → Out} (hk : ∀ v t, Holds (R t) (k v t)) :
    Holds (R s) (s.readThen la k) := by
  have hturn := F.ofLocal (Local.turn s)
  unfold State.readThen
  cases h : s.read la with
  | error e => exact F.holds_trans hturn (F.stop (State.read_error h))
  | ok v => exact F.holds_trans hturn (hk v _)

theorem Frame.pointerThen {addr : Word} {rx : Reg} {k : Word → State → Out} (hk : ∀ v t, Holds (R t) (k v t)) :
    Holds (R s) (s.pointerThen addr rx k) :=
  F.readThen hk

theorem Frame.readThen2 {la : Word} {k : Long → State → Out} (hk : ∀ v t, Holds (R t) (k v t)) :
    Holds (R s) (s.readThen2 la k) :=
  F.readThen fun _ _ => F.readThen fun _ t => hk _ t

theorem Frame.readThen3 {la : Word} {k : Ext → State → Out} (hk : ∀ v t, Holds (R t) (k v t)) :
    Holds (R s) (s.readThen3 la k) :=
  F.readThen fun _ _ => F.readThen fun _ _ => F.readThen fun _ t => hk _ t

theorem Frame.store {ws : List (Word × Word)} {k : State → Out} (hk : ∀ t, Holds (R t) (k t)) :
    Holds (R s) (s.store ws k) := by
  unfold State.store
  split
  · cases h : s.storeWords s.as (some s.ps) ws with
    | done t => exact F.holds_trans (F.ofLocal (State.storeWords_done h).2.2) (hk t)
    | faulted f t =>
      obtain ⟨hf, hl⟩ := State.storeWords_faulted h
      exact F.ofLocal (hl.trans (Local.raise t f hf))
  · trivial

theorem Frame.fetchThen {k : List Word → State → Out} (hk : ∀ ws t, Holds (R t) (k ws t)) :
    ∀ (count : Nat) (la : Word) (ws : List Word) (s : State), Holds (R s) (State.fetchThen k count la ws s)
  | 0, _, ws, s => hk ws s
  | count + 1, la, ws, s => by
    have hturn := F.ofLocal (Local.turn s)
    unfold State.fetchThen
    cases h : s.fetch la with
    | error e => exact F.holds_trans hturn (F.stop (State.fetch_error h))
    | ok w => exact F.holds_trans hturn (Frame.fetchThen hk count (la + 1) (ws ++ [w]) s.turn)

end

/-! ### Rules of several references -/

section
variable {s : State}

/-- A store that ends with IC past the instruction. -/
theorem Local.store_advance (ws : List (Word × Word)) (len : Word) :
    Holds (Local s) (s.store ws fun t => .next (t.advance len)) :=
  Frame.local.store fun t => Local.advance t len

theorem Local.modifyWord (f : Word → Word) (da : Word) : Holds (Local s) (s.modifyWord f da) :=
  Frame.local.readThen fun _ _ => Local.store_advance _ 2

theorem Local.storeByte (f : Word → Byte → Word) (ra : Reg) (da : Word) : Holds (Local s) (s.storeByte f ra da) :=
  Frame.local.readThen fun _ _ => Local.store_advance _ 2

theorem Local.sumMemory (f : Word → Sum 16) (da : Word) : Holds (Local s) (s.sumMemory f da) :=
  Frame.local.readThen fun _ _ => Frame.local.store fun t => (Local.requestIf t _ _).trans (Local.finishCs _ _ _)

theorem Local.loadRegs : ∀ (count k : Nat) (la : Word) (s : State), Holds (Local s) (State.loadRegs count k la s)
  | 0, _, _, s => Local.advance s 2
  | count + 1, k, la, _ =>
    Frame.local.readThen fun _ t =>
      Frame.local.holds_trans (Local.setReg t _ _) (Local.loadRegs count (k + 1) (la + 1) _)

theorem Local.popOne (k : Reg) {next : State → Out} (hn : ∀ t, Holds (Local t) (next t)) :
    Holds (Local s) (s.popOne k next) := by
  unfold State.popOne
  split
  · exact Frame.local.holds_trans (Local.setReg s _ _) (hn _)
  · exact Frame.local.readThen fun _ t =>
      Frame.local.holds_trans ((Local.setReg t _ _).trans (Local.setReg _ _ _)) (hn _)

theorem Local.popRegs : ∀ (n : Nat) (k : Reg) (s : State), Holds (Local s) (State.popRegs n k s)
  | 0, k, _ => Local.popOne k fun t => Local.advance t 1
  | n + 1, k, _ => Local.popOne k fun t => Local.popRegs n (k + 1) t

theorem Local.execPshm (ra rb : Reg) (s : State) : Holds (Local s) (execPshm ra rb s) := by
  have hspend := Local.spend s 1
  unfold Machine.execPshm
  dsimp only
  split
  · split
    · rename_i h
      exact (hspend.trans (State.storeWords_done h).2.2).trans (Local.setReg_advance _ _ _ _)
    · rename_i h
      obtain ⟨hf, hl⟩ := State.storeWords_faulted h
      split
      · exact ((hspend.trans hl).trans (Local.setReg _ _ _)).trans (Local.raise _ _ hf)
      · exact (hspend.trans hl).trans (Local.raise _ _ hf)
  · trivial

theorem Local.execMov (ra rb : Reg) (s : State) : Holds (Local s) (execMov ra rb s) := by
  unfold Machine.execMov
  split
  · exact Local.advance s 1
  · exact Frame.local.readThen fun _ _ => Frame.local.store fun t => (Local.moveStep t ra rb).trans (Local.moveEnd _ ra)

theorem Local.execTsb (n : BitVec 4) (rx : Reg) (addr : Word) (s : State) : Holds (Local s) (execTsb n rx addr s) := by
  refine Frame.local.readThen fun w t => ?_
  dsimp only
  split
  · rename_i pa h
    exact (Local.physWrite t pa _ (State.translate_ok h)).trans (Local.finishCs _ _ _)
  · rename_i f h
    have hf := State.translate_error_ok h
    split
    · exact ((Local.ite t (Local.setCs t _) (Local.refl t)).trans (Local.spend _ _)).trans (Local.raise _ f hf)
    · exact Local.raise t f hf

theorem Local.execFix (ra rb : Reg) (s : State) : Holds (Local s) (execFix ra rb s) := by
  unfold Machine.execFix
  dsimp only
  split
  · split
    · exact (Local.request s _).trans (Local.finishCs _ _ _)
    · exact Local.finish s _ _ _ _
  · exact ((Local.requestIf s _ _).trans (Local.finish _ _ _ _ _)).trans (Local.spend _ _)

theorem Local.execEfix (ra rb : Reg) (s : State) : Holds (Local s) (execEfix ra rb s) := by
  unfold Machine.execEfix
  dsimp only
  split
  · split
    · exact (Local.request s _).trans (Local.finishCs _ _ _)
    · exact Local.finish2 s _ _ _ _
  · exact ((Local.requestIf s _ _).trans (Local.finish2 _ _ _ _ _)).trans (Local.spend _ _)

theorem Local.execJci (c : BitVec 4) (rx : Reg) (addr : Word) (s : State) : Holds (Local s) (execJci c rx addr s) := by
  unfold Machine.execJci
  split
  · exact Frame.local.readThen fun da t => Local.setIc t da
  · exact Local.advance s 2

end

/-! ### Every instruction that is not about control state -/

/-- The instructions that reach control state: input/output, status loads, BEX, BPT and the built-in functions. -/
def Instr.reachesControl : Instr → Bool
  | .xio _ _ _ => true
  | .vio _ _ _ => true
  | .lst _ _ => true
  | .lsti _ _ => true
  | .bex _ => true
  | .bpt => true
  | .builtin _ => true
  | _ => false

/-- By the end of the rule of each instruction, after the references of its addressing mode. -/
theorem exec_local (i : Instr) (s : State) (h : Instr.reachesControl i = false) : Holds (Local s) (exec i s) := by
  unfold exec
  cases i
  case xio | vio | lst | lsti | bex | bpt | builtin => cases h
  case sbr | rbr | svbr | rvbr =>
    exact Local.setReg_advance s _ _ _
  case sb | rb =>
    exact Local.modifyWord _ _
  case sbi | rbi =>
    dsimp only
    refine Frame.local.pointerThen fun _ _ => ?_
    exact Local.modifyWord _ _
  case tbr | tvbr | cr | cisp | cisn | cim | dcr =>
    exact Local.finishCs s _ _
  case tb | cb | cbx | c =>
    dsimp only
    refine Frame.local.readThen fun _ t => ?_
    exact Local.finishCs t _ _
  case tbi | cbl =>
    dsimp only
    refine Frame.local.readThen fun _ _ => Frame.local.readThen fun _ t => ?_
    exact Local.finishCs t _ _
  case tsb =>
    exact Local.execTsb _ _ _ s
  case sll | srl | sra | slc | lr | lisp | lisn | lim | orr | orim | andr | andm | xorr | xorm | nr | nim | xbr =>
    exact Local.finish s _ _ _ _
  case dsll | dsrl | dsra | dslc | dlr | mr | mim =>
    exact Local.finish2 s _ _ _ _
  case slr | sar | scr =>
    exact Local.shiftVar s _ _ _ _ _
  case dslr | dsar | dscr =>
    exact Local.shiftVar2 s _ _ _ _ _
  case jc =>
    exact Local.ite s (Local.setIc s _) (Local.advance s 2)
  case jci =>
    exact Local.execJci _ _ _ s
  case js =>
    exact Local.setReg_setIc s _ _ _
  case soj =>
    exact ((Local.setReg s _ _).trans (Local.setCs _ _)).trans (Local.ite _ (Local.setIc _ _) (Local.advance _ 2))
  case br =>
    exact Local.setIc s _
  case bez | blt | ble | bgt | bnz | bge =>
    exact Local.branchOn s _ _
  case sjs =>
    exact Frame.local.holds_trans (Local.setReg s _ _) (Frame.local.store fun t => Local.setIc t _)
  case urs =>
    dsimp only
    refine Frame.local.readThen fun _ t => ?_
    exact Local.setReg_setIc t _ _ _
  case l | lb | lbx | lub | llb | orb | orbx | or | andb | andx | and | xor | n =>
    dsimp only
    refine Frame.local.readThen fun _ t => ?_
    exact Local.finish t _ _ _ _
  case li | lubi | llbi =>
    dsimp only
    refine Frame.local.readThen fun _ _ => Frame.local.readThen fun _ t => ?_
    exact Local.finish t _ _ _ _
  case dl | dlb | dlbx =>
    dsimp only
    refine Frame.local.readThen2 fun _ t => ?_
    exact Local.finish2 t _ _ _ _
  case dli =>
    dsimp only
    refine Frame.local.readThen fun _ _ => Frame.local.readThen2 fun _ t => ?_
    exact Local.finish2 t _ _ _ _
  case lm =>
    exact Local.loadRegs _ _ _ s
  case efl =>
    dsimp only
    refine Frame.local.readThen3 fun _ t => ?_
    exact Local.finish3 t _ _ _ _
  case popm =>
    exact Local.popRegs _ _ s
  case st | stb | stbx | stc | dst | dstb | dstx | stm | efst =>
    exact Local.store_advance _ _
  case sti | stci | dsti =>
    dsimp only
    refine Frame.local.pointerThen fun _ _ => ?_
    exact Local.store_advance _ 2
  case srm =>
    dsimp only
    refine Frame.local.readThen fun _ _ => ?_
    exact Local.store_advance _ 2
  case mov =>
    exact Local.execMov _ _ s
  case stub | stlb =>
    exact Local.storeByte _ _ _
  case subi | slbi =>
    dsimp only
    refine Frame.local.pointerThen fun _ _ => ?_
    exact Local.storeByte _ _ _
  case pshm =>
    exact Local.execPshm _ _ s
  case ar | aisp | aim | sr | sisp | sim =>
    exact Local.sumTo s _ _ _
  case ab | abx | a | sbb | sbbx | s =>
    dsimp only
    refine Frame.local.readThen fun _ t => ?_
    exact Local.sumTo t _ _ _
  case incm | decm =>
    exact Local.sumMemory _ _
  case abs | neg =>
    exact Local.negateTo s _ _ _
  case dabs | dneg =>
    exact Local.negateTo2 s _ _ _
  case dar | dsr =>
    exact Local.sumTo2 s _ _ _
  case da | ds =>
    dsimp only
    refine Frame.local.readThen2 fun _ t => ?_
    exact Local.sumTo2 t _ _ _
  case msr | misp | misn | msim =>
    exact Local.mulSingle s _ _ _
  case ms =>
    dsimp only
    refine Frame.local.readThen fun _ t => ?_
    exact Local.mulSingle t _ _ _
  case mb | mbx | m =>
    dsimp only
    refine Frame.local.readThen fun _ t => ?_
    exact Local.finish2 t _ _ _ _
  case dmr =>
    exact Local.mulTo2 s _ _ _
  case dm =>
    dsimp only
    refine Frame.local.readThen2 fun _ t => ?_
    exact Local.mulTo2 t _ _ _
  case dvr | disp | disn | dvim =>
    exact Local.divSingle s _ _ _
  case dv =>
    dsimp only
    refine Frame.local.readThen fun _ t => ?_
    exact Local.divSingle t _ _ _
  case dr | dim =>
    exact Local.divTo s _ _ _
  case db | dbx | d =>
    dsimp only
    refine Frame.local.readThen fun _ t => ?_
    exact Local.divTo t _ _ _
  case ddr =>
    exact Local.divTo2 s _ _ _
  case dd =>
    dsimp only
    refine Frame.local.readThen2 fun _ t => ?_
    exact Local.divTo2 t _ _ _
  case far | fsr | fmr | fdr =>
    exact Local.float s _ _ _ _
  case fab | fabx | fa | fsb | fsbx | fs | fmb | fmbx | fm | fdb | fdbx | fd =>
    dsimp only
    refine Frame.local.readThen2 fun _ t => ?_
    exact Local.float t _ _ _ _
  case efar | efsr | efmr | efdr =>
    exact Local.extended s _ _ _ _
  case efa | efs | efm | efd =>
    dsimp only
    refine Frame.local.readThen3 fun _ t => ?_
    exact Local.extended t _ _ _ _
  case fabs | fneg =>
    exact Local.floatUnary s _ _ _ _
  case fix =>
    exact Local.execFix _ _ s
  case flt =>
    exact Local.storeFloat s _ _ _
  case efix =>
    exact Local.execEfix _ _ s
  case eflt =>
    exact Local.storeExtended s _ _ _
  case fcr =>
    exact Local.floatCompare s _ _ _
  case fcb | fcbx | fc =>
    dsimp only
    refine Frame.local.readThen2 fun _ t => ?_
    exact Local.floatCompare t _ _ _
  case efcr =>
    exact Local.extendedCompare s _ _ _
  case efc =>
    dsimp only
    refine Frame.local.readThen3 fun _ t => ?_
    exact Local.extendedCompare t _ _ _
  case xwr =>
    exact (Local.setReg s _ _).trans (Local.finish _ _ _ _ _)
  case dc =>
    dsimp only
    refine Frame.local.readThen2 fun _ t => ?_
    exact Local.finishCs t _ _
  case nop =>
    exact Local.advance s _

end Sys2Proof.Machine
end

section
/-! What the instructions that reach control state change, and the statements PrivilegedInstructionsTrap,
ControlStateFrame, UserModeIsConfined. -/

namespace Sys2Proof.Machine

/-! ### Built-in functions (49_logic_compare_misc.md R794) -/

/-- MFSR takes no reserved bit from a user's fault. -/
theorem and_mfsrMask_reserved (w : Word) : w &&& 0xF01F#16 &&& 0x0FE0#16 = 0#16 := by
  rw [BitVec.and_assoc]
  exact BitVec.and_zero

theorem State.asFault_ok {s : State} {o : Option State} {f : FaultReq} (h : s.asFault o = some f) : f.ok := by
  unfold State.asFault at h
  split at h
  · cases h
  · split at h
    · cases h
      exact ok_none _
    · cases h

theorem State.userFault_ok {s : State} {op : UserOp} {f : FaultReq} (h : s.userFault op = some f) : f.ok := by
  unfold State.userFault at h
  split at h
  · exact State.asFault_ok h
  · exact State.asFault_ok h
  · cases h
    intro w hw
    dsimp only at hw
    split at hw
    · cases hw
      exact and_mfsrMask_reserved _
    · cases hw

/-- A function that the configuration does not define is an illegal instruction and nothing else. -/
theorem execBuiltin_undefined {opex : BitVec 8} {s : State} (h : s.cfg.builtins.lookup opex = none) :
    execBuiltin opex s = .next (s.raise illegalInstruction) := by
  rw [execBuiltin, h]

/-- What every adoption of a user's state respects, a built-in function respects. -/
theorem Frame.execBuiltin {R : State → State → Prop} (F : Frame R) (opex : BitVec 8) (s : State)
    (hu : s.cfg.builtins.lookup opex ≠ none → ∀ ws t, R t (t.adopt (Config.userState (.builtin opex ws) t))) :
    Holds (R s) (execBuiltin opex s) := by
  cases h : s.cfg.builtins.lookup opex with
  | none =>
    rw [execBuiltin_undefined h]
    exact F.ofLocal (Local.raise s _ (ok_none _))
  | some extra =>
    rw [Machine.execBuiltin, h]
    refine F.fetchThen (fun ws t => ?_) extra _ [] s
    have hadopt := hu (by simp [h]) ws t
    dsimp only
    split
    · rename_i f hf
      split
      · exact F.trans hadopt (F.ofLocal (Local.raiseIllegalIo _ _))
      · exact F.trans hadopt (F.ofLocal (Local.raise _ f (State.userFault_ok hf)))
    · exact F.trans hadopt (F.ofLocal (Local.setIc _ _))

/-- `t` has the configuration, the ROM, the schedule, the parity oracle and the halt of `s`. -/
structure SameOutside (s t : State) : Prop where
  cfg : t.cfg = s.cfg
  rom : t.rom = s.rom
  schedule : t.schedule = s.schedule
  badParity : t.ctl.badParity = s.ctl.badParity
  halted : t.halted = s.halted

theorem Frame.sameOutside : Frame SameOutside where
  trans h g := ⟨g.cfg.trans h.cfg, g.rom.trans h.rom, g.schedule.trans h.schedule, g.badParity.trans h.badParity,
    g.halted.trans h.halted⟩
  ofLocal h := ⟨h.cfg, h.rom, h.schedule, congrArg _ h.ctl, h.halted⟩

theorem SameOutside.adopt (s : State) (o : Option State) : SameOutside s (s.adopt o) := by
  cases o <;> exact ⟨rfl, rfl, rfl, rfl, rfl⟩

/-- `t` has PS, AS and the reserved bits of SW of `s`. -/
def SameLow (s t : State) : Prop := t.sw.extractLsb' 0 12 = s.sw.extractLsb' 0 12

theorem Frame.sameLow : Frame SameLow where
  trans h g := g.trans h
  ofLocal h := h.low

theorem SameLow.adopt {s : State} {o : Option State}
    (h : ∀ u, o = some u → u.sw.extractLsb' 0 12 = s.sw.extractLsb' 0 12) : SameLow s (s.adopt o) := by
  cases o with
  | none => rfl
  | some u => exact h u rfl

/-! ### The control state after an instruction -/

/-- The user's function of the built-in function `i`, if the configuration of `s` defines it, leaves PS, AS and the
reserved bits of SW alone. -/
def UserKeepsLow (i : Instr) (s : State) : Prop :=
  ∀ opex ws u v, i = .builtin opex → s.cfg.builtins.lookup opex ≠ none →
    Config.userState (.builtin opex ws) u = some v → v.sw.extractLsb' 0 12 = u.sw.extractLsb' 0 12

/-- Masks, latches, page registers, protection and devices of `t` are those of `s`, but for the timers a BPT stops. -/
structure SameControl (i : Instr) (s t : State) : Prop where
  mask : t.mask = s.mask
  ien : t.ien = s.ien
  enblPending : t.enblPending = s.enblPending
  ctl : t.ctl = s.ctl
  dev : i ≠ .bpt → t.dev = s.dev
  devBpt : i = .bpt → t.dev = s.dev ∨ t.dev = { s.dev with taRun := false, tbRun := false }

/-- The instruction `i` that makes `t` of `s` keeps the control state, as far as no user's function has changed it. -/
structure ControlKept (i : Instr) (s t : State) : Prop where
  low : UserKeepsLow i s → SameLow s t
  cfg : t.cfg = s.cfg
  rom : t.rom = s.rom
  schedule : t.schedule = s.schedule
  badParity : t.ctl.badParity = s.ctl.badParity
  halted : i ≠ .bpt → t.halted = s.halted
  control : (∀ opex, i = .builtin opex → s.cfg.builtins.lookup opex = none) → SameControl i s t

theorem Local.controlKept (i : Instr) {s t : State} (h : Local s t) : ControlKept i s t where
  low _ := h.low
  cfg := h.cfg
  rom := h.rom
  schedule := h.schedule
  badParity := congrArg _ h.ctl
  halted _ := h.halted
  control _ := ⟨h.mask, h.ien, h.enblPending, h.ctl, fun _ => h.dev, fun _ => .inl h.dev⟩

/-- With a console connected BPT halts the processor and its timers and ends as any instruction does. -/
theorem exec_bpt_controlKept (s : State) : Holds (ControlKept .bpt s) (exec .bpt s) := by
  show ControlKept .bpt s (if s.cfg.hasConsole && s.cfg.consoleConnected then _ else s.advance 1)
  split
  · exact ⟨fun _ => rfl, rfl, rfl, rfl, rfl, fun h => absurd rfl h,
      fun _ => ⟨rfl, rfl, rfl, rfl, fun h => absurd rfl h, fun _ => .inr rfl⟩⟩
  · exact (Local.advance s 1).controlKept .bpt

theorem exec_builtin_controlKept (opex : BitVec 8) (s : State) :
    Holds (ControlKept (.builtin opex) s) (exec (.builtin opex) s) := by
  show Holds (ControlKept (.builtin opex) s) (execBuiltin opex s)
  cases h : s.cfg.builtins.lookup opex with
  | none =>
    rw [execBuiltin_undefined h]
    exact (Local.raise s _ (ok_none _)).controlKept _
  | some extra =>
    have houtside := Frame.sameOutside.execBuiltin opex s fun _ _ t => SameOutside.adopt t _
    have hlow (hu : UserKeepsLow (.builtin opex) s) := Frame.sameLow.execBuiltin opex s fun hd ws t =>
      SameLow.adopt fun v => hu opex ws t v rfl hd
    cases ho : execBuiltin opex s with
    | next t =>
      rw [ho] at houtside hlow
      exact ⟨hlow, houtside.cfg, houtside.rom, houtside.schedule, houtside.badParity, fun _ => houtside.halted,
        fun hd => by simp [hd opex rfl] at h⟩
    | fault _ => trivial
    | refused _ => trivial

/-- The instructions that load status, reach devices or call the executive. -/
def Instr.loadsControl : Instr → Bool
  | .xio _ _ _ => true
  | .vio _ _ _ => true
  | .lst _ _ => true
  | .lsti _ _ => true
  | .bex _ => true
  | _ => false

theorem exec_controlKept (i : Instr) (s : State) (hi : Instr.loadsControl i = false) :
    Holds (ControlKept i s) (exec i s) := by
  cases hc : Instr.reachesControl i with
  | false => exact Holds.mono (fun _ => Local.controlKept i) (exec_local i s hc)
  | true =>
    cases i
    case bpt => exact exec_bpt_controlKept s
    case builtin opex => exact exec_builtin_controlKept opex s
    case xio | vio | lst | lsti | bex => cases hi
    all_goals cases hc

/-! ### Privileged instructions (60_exceptions.md R830) -/

/-- A fault with FT bit 10. -/
theorem State.raise_privileged (s : State) : s.raise privilegedFault =
    s.afterFault 0x0020#16 .privileged none (s.free 0) :=
  rfl

section
variable {s : State} (h : s.ps ≠ 0#4) (ra rx : Reg) (addr : Word)
include h

theorem exec_xio_user : exec (.xio ra rx addr) s = .next (s.raise privilegedFault) := if_pos h

theorem exec_vio_user : exec (.vio ra rx addr) s = .next (s.raise privilegedFault) := if_pos h

theorem exec_lst_user : exec (.lst rx addr) s = .next (s.raise privilegedFault) := if_pos h

theorem exec_lsti_user : exec (.lsti rx addr) s = .next (s.raise privilegedFault) := if_pos h

end

/-- In a user mode the only instruction that reaches control state without a user's function is BEX. -/
theorem exec_user_controlKept (i : Instr) {s : State} (h : s.ps ≠ 0#4) (hi : ∀ n, i ≠ .bex n) :
    Holds (ControlKept i s) (exec i s) := by
  have htrap : ControlKept i s (s.raise privilegedFault) := (Local.raise s _ (ok_none _)).controlKept i
  cases hc : Instr.loadsControl i with
  | false => exact exec_controlKept i s hc
  | true =>
    cases i
    case xio ra rx addr => rwa [exec_xio_user h]
    case vio ra rx addr => rwa [exec_vio_user h]
    case lst rx addr => rwa [exec_lst_user h]
    case lsti rx addr => rwa [exec_lsti_user h]
    case bex n => exact absurd rfl (hi n)
    all_goals cases hc

end Sys2Proof.Machine

/-! ### The statements -/

namespace Sys2Proof.Certificates

open Sys2Proof.Machine

/-- Settles O43: each of the four looks at PS first. -/
theorem privilegedInstructionsTrap : Obligations.PrivilegedInstructionsTrap := by
  intro s ra rx addr h i hi
  refine ⟨s.free 0, ?_⟩
  rw [← State.raise_privileged]
  simp only [List.mem_cons, List.not_mem_nil, or_false] at hi
  rcases hi with rfl | rfl | rfl | rfl
  · exact exec_xio_user h ra rx addr
  · exact exec_vio_user h ra rx addr
  · exact exec_lst_user h rx addr
  · exact exec_lsti_user h rx addr

/-- Settles O41: the ends of all rules but six, BPT, and a built-in function by what its user's function keeps. -/
theorem controlStateFrame : Obligations.ControlStateFrame := by
  intro i s t ht hio hst hbex
  have hi : Instr.loadsControl i = false := by
    cases i
    case xio ra rx addr => exact absurd rfl (hio ra rx addr).1
    case vio ra rx addr => exact absurd rfl (hio ra rx addr).2
    case lst rx addr => exact absurd rfl (hst rx addr).1
    case lsti rx addr => exact absurd rfl (hst rx addr).2
    case bex n => exact absurd rfl (hbex n)
    all_goals rfl
  have kept := exec_controlKept i s hi
  rw [ht] at kept
  refine ⟨kept.low, kept.cfg, kept.rom, kept.schedule, kept.badParity, kept.halted, fun hd => ?_⟩
  have c := kept.control hd
  exact ⟨c.mask, c.ien, c.enblPending, c.ctl, c.dev, c.devBpt⟩

/-- Settles O42: the privileged four trap, the others keep the control state in any mode. -/
theorem userModeIsConfined : Obligations.UserModeIsConfined := by
  intro i s t hps ht hbex
  have kept := exec_user_controlKept i hps hbex
  rw [ht] at kept
  refine ⟨kept.low, kept.halted, fun hd => ?_⟩
  have c := kept.control hd
  exact ⟨c.mask, c.ien, c.enblPending, c.ctl, c.dev, c.devBpt⟩

end Sys2Proof.Certificates
end

section
/-! The invariant through everything a step does: user defined operations, commands, interrupt sequences, events, the
boundary; and the statements ResetIsSound, StepKeepsInv. -/

namespace Sys2Proof.Machine

/-- `t` is sound if `s` is, with the configuration and the ROM of `s`. -/
structure Sound (s t : State) : Prop where
  inv : s.Inv → t.Inv
  cfg : t.cfg = s.cfg
  rom : t.rom = s.rom

theorem Frame.sound : Frame Sound where
  trans h g := ⟨fun i => g.inv (h.inv i), g.cfg.trans h.cfg, g.rom.trans h.rom⟩
  ofLocal h := ⟨h.inv, h.cfg, h.rom⟩

theorem Local.sound {s t : State} (h : Local s t) : Sound s t := Frame.sound.ofLocal h

theorem Sound.trans {a b c : State} (h : Sound a b) (g : Sound b c) : Sound a c := Frame.sound.trans h g

theorem Sound.refl (s : State) : Sound s s := (Local.refl s).sound

/-- A change of what the invariant does not speak of. -/
theorem Sound.of_eq {s t : State} (hcfg : t.cfg = s.cfg) (hrom : t.rom = s.rom) (hmem : t.mem = s.mem)
    (hft : t.ft = s.ft) (hmfsr : t.mfsr = s.mfsr) (hi : t.ctl.iPage = s.ctl.iPage) (ho : t.ctl.oPage = s.ctl.oPage) :
    Sound s t := by
  refine ⟨fun h => ?_, hcfg, hrom⟩
  unfold State.Inv at *
  rwa [hcfg, hrom, hmem, hft, hmfsr, hi, ho]

/-- A change of the devices. -/
theorem Sound.dev (s : State) (d : Devices) : Sound s { s with dev := d } := Sound.of_eq rfl rfl rfl rfl rfl rfl rfl

/-! ### Page registers (10_state.md R54, D24) -/

theorem pageRegisterOk_pageValue (c : Config) (r : Word) : pageRegisterOk c (pageValue c r) := by
  have hmask (m : Word) (hm : m &&& 0x0700#16 = 0#16) : r &&& m &&& 0x0700#16 = 0#16 := by
    rw [BitVec.and_assoc, hm]
    exact BitVec.and_zero
  unfold pageRegisterOk pageValue
  cases c.mmu with
  | none => exact ⟨hmask _ (by decide), trivial⟩
  | some m =>
    dsimp only
    cases m.hasLock with
    | true => exact ⟨hmask _ (by decide), fun h => nomatch h⟩
    | false =>
      refine ⟨hmask _ (by decide), fun _ => ?_⟩
      rw [if_neg Bool.false_ne_true, BitVec.and_assoc]
      exact BitVec.and_zero

theorem pageRegistersOk_map (c : Config) (v : Vector Word 256) : pageRegistersOk c (v.map (pageValue c)) := by
  intro i
  have hmap : (v.map (pageValue c))[i] = pageValue c v[i] := by simp
  rw [hmap]
  exact pageRegisterOk_pageValue c _

theorem pageRegistersOk_set {c : Config} {v : Vector Word 256} (h : pageRegistersOk c v) (k : Nat) (hk : k < 256)
    (r : Word) : pageRegistersOk c (v.set k (pageValue c r) hk) := by
  intro i
  have hset : (v.set k (pageValue c r) hk)[i] = if k = i.val then pageValue c r else v[i] := by
    simp [Vector.getElem_set]
  rw [hset]
  split
  · exact pageRegisterOk_pageValue c r
  · exact h i

/-! ### User defined operations (entries 25, 26) -/

/-- FT bit 12 is not set by taking bits away. -/
theorem and_ft_reserved {a : Word} (b : Word) (h : a &&& 0x0008#16 = 0#16) : a &&& b &&& 0x0008#16 = 0#16 := by
  rw [BitVec.and_assoc, BitVec.and_comm b, ← BitVec.and_assoc, h]
  exact BitVec.zero_and

theorem memoryOk_of_legal {m : Memory} (h : m.legal = true) : memoryOk m := Bool.and_eq_true_iff.1 h

theorem Sound.take (s u : State) : Sound s (s.take u) := by
  refine ⟨fun h => ?_, rfl, rfl⟩
  obtain ⟨hmem, hrom, hill, hft, hmfsr, _, _⟩ := h
  refine ⟨?_, hrom, hill, and_ft_reserved _ hft, and_mfsrMask_reserved _, pageRegistersOk_map _ _,
    pageRegistersOk_map _ _⟩
  show memoryOk (if u.mem.legal then u.mem else s.mem)
  split
  · exact memoryOk_of_legal ‹_›
  · exact hmem

theorem Sound.adopt (s : State) (o : Option State) : Sound s (s.adopt o) := by
  cases o with
  | none => exact Sound.refl s
  | some u => exact Sound.take s u

theorem Sound.adoptSpare (s : State) (op : UserOp) : Sound s (s.adoptSpare op) :=
  (Sound.adopt s _).trans (Sound.of_eq rfl rfl rfl rfl rfl rfl rfl)

/-! ### Results of stores, commands and interrupt sequences -/

/-- What storing, a command or a sequence leaves satisfies `P`, and its fault, if any, has reserved bits zero. -/
def Stored.Holds (P : State → Prop) : Stored → Prop
  | .done t => P t
  | .faulted f t => f.ok ∧ P t

theorem Stored.Holds.mono {P Q : State → Prop} (h : ∀ t, P t → Q t) : ∀ {o : Stored}, o.Holds P → o.Holds Q
  | .done t, ho => h t ho
  | .faulted _ t, ho => ⟨ho.1, h t ho.2⟩

theorem Sound.writeSw (s : State) (v : Word) : Sound s (s.writeSw v) := by
  unfold State.writeSw
  split <;> exact Sound.of_eq rfl rfl rfl rfl rfl rfl rfl

theorem Sound.output (s : State) (c : OutCmd) (r : Word) : (s.output c r).Holds (Sound s) := by
  cases c
  case clir =>
    refine ⟨fun h => ?_, rfl, rfl⟩
    obtain ⟨hmem, hrom, hill, _, hmfsr, hi, ho⟩ := h
    exact ⟨hmem, hrom, hill, BitVec.zero_and, hmfsr, hi, ho⟩
  case rpi =>
    refine ⟨fun h => ?_, rfl, rfl⟩
    obtain ⟨hmem, hrom, hill, hft, hmfsr, hi, ho⟩ := h
    refine ⟨hmem, hrom, hill, ?_, hmfsr, hi, ho⟩
    show (if _ then 0 else s.ft) &&& 0x0008#16 = 0#16
    split
    · rfl
    · exact hft
  case wsw =>
    show (if _ then Stored.done _ else Stored.faulted _ _).Holds (Sound s)
    split
    · exact Sound.writeSw s r
    · exact ⟨ok_none _, Sound.writeSw s r⟩
  case co =>
    show Sound s (if _ then _ else s)
    split
    · exact Sound.dev s _
    · exact Sound.refl s
  case wipr page =>
    refine ⟨fun h => ?_, rfl, rfl⟩
    obtain ⟨hmem, hrom, hill, hft, hmfsr, hi, ho⟩ := h
    exact ⟨hmem, hrom, hill, hft, hmfsr, pageRegistersOk_set hi _ page.isLt r, ho⟩
  case wopr page =>
    refine ⟨fun h => ?_, rfl, rfl⟩
    obtain ⟨hmem, hrom, hill, hft, hmfsr, hi, ho⟩ := h
    exact ⟨hmem, hrom, hill, hft, hmfsr, hi, pageRegistersOk_set ho _ page.isLt r⟩
  case spare cmd => exact (Sound.adoptSpare s _).trans (Sound.dev _ _)
  all_goals exact Sound.of_eq rfl rfl rfl rfl rfl rfl rfl

theorem Sound.input (s : State) (c : InCmd) : Sound s (s.input c).2 := by
  cases c
  case rcfr =>
    refine ⟨fun h => ?_, rfl, rfl⟩
    obtain ⟨hmem, hrom, hill, _, hmfsr, hi, ho⟩ := h
    exact ⟨hmem, hrom, hill, BitVec.zero_and, hmfsr, hi, ho⟩
  case ci =>
    unfold State.input
    dsimp only
    split <;> exact Sound.of_eq rfl rfl rfl rfl rfl rfl rfl
  case spare cmd => exact (Sound.adoptSpare s _).trans (Local.spend _ 1).sound
  all_goals exact Sound.of_eq rfl rfl rfl rfl rfl rfl rfl

/-! ### Instructions that reach control state -/

theorem Sound.vioChain (base step sel : Word) :
    ∀ (bits : List (BitVec 4)) (data : Word) (s : State), Holds (Sound s) (State.vioChain base step sel bits data s)
  | [], _, s => (Local.advance s 2).sound
  | n :: rest, data, s => by
    unfold State.vioChain
    split
    · split
      · exact (Local.raiseIllegalIo s 2).sound
      · rename_i c _
        refine Frame.sound.readThen fun r t => ?_
        have hout := Sound.output t c r
        split
        · rename_i u hu
          rw [hu] at hout
          exact Frame.sound.holds_trans hout (Sound.vioChain base step sel rest (data + 1) u)
        · rename_i f u hu
          rw [hu] at hout
          exact hout.2.trans (Local.raise u f hout.1).sound
      · rename_i c _
        exact Frame.sound.holds_trans (Sound.input s c)
          (Frame.sound.store fun t => Sound.vioChain base step sel rest (data + 1) t)
    · exact Sound.vioChain base step sel rest data s

theorem Sound.execXio (ra rx : Reg) (addr : Word) (s : State) : Holds (Sound s) (execXio ra rx addr s) := by
  unfold Machine.execXio
  split
  · exact (Local.raise s _ (ok_none _)).sound
  · split
    · exact (Local.raiseIllegalIo s 2).sound
    · rename_i c _
      have hout := Sound.output s c (s.reg ra)
      split
      · rename_i t ht
        rw [ht] at hout
        exact Sound.trans hout (Local.advance t 2).sound
      · rename_i f t ht
        rw [ht] at hout
        exact hout.2.trans (Local.raise t f hout.1).sound
    · exact (Sound.input s _).trans (Local.setReg_advance _ _ _ _).sound

theorem Sound.execVio (ra rx : Reg) (addr : Word) (s : State) : Holds (Sound s) (execVio ra rx addr s) := by
  unfold Machine.execVio
  split
  · exact (Local.raise s _ (ok_none _)).sound
  · exact Frame.sound.readThen fun _ _ => Frame.sound.readThen fun _ t => Sound.vioChain _ _ _ _ _ t

theorem Sound.loadStatus (s : State) (t : Ext) : Sound s (s.loadStatus t) := by
  have hload : Sound s ({ s with mask := Ext.w0 t }.writeSw (Ext.w1 t)) :=
    Sound.trans (b := { s with mask := Ext.w0 t }) (Sound.of_eq rfl rfl rfl rfl rfl rfl rfl) (Sound.writeSw _ _)
  unfold State.loadStatus
  dsimp only
  split
  · exact hload.trans (Local.setIc _ _).sound
  · exact hload.trans (Local.raise _ _ (ok_none _)).sound

theorem Sound.execLst (rx : Reg) (addr : Word) (s : State) : Holds (Sound s) (execLst rx addr s) := by
  unfold Machine.execLst
  split
  · exact (Local.raise s _ (ok_none _)).sound
  · exact Frame.sound.readThen3 fun v t => Sound.loadStatus t v

theorem Sound.execLsti (rx : Reg) (addr : Word) (s : State) : Holds (Sound s) (execLsti rx addr s) := by
  unfold Machine.execLsti
  split
  · exact (Local.raise s _ (ok_none _)).sound
  · exact Frame.sound.pointerThen fun _ _ => Frame.sound.readThen3 fun v t => Sound.loadStatus t v

/-! ### Interrupt sequences (60_exceptions.md R816) -/

section
variable {R : State → State → Prop} (F : Frame R) {s : State}
include F

theorem Frame.vectorThen {la : Word} {k : Word → State → Stored} (hk : ∀ v t, (k v t).Holds (R t)) :
    (s.vectorThen la k).Holds (R s) := by
  have hturn := F.ofLocal (Local.turn s)
  unfold State.vectorThen
  cases h : s.vectorRead la with
  | error f => exact ⟨State.vectorRead_error h, hturn⟩
  | ok v => exact Stored.Holds.mono (fun _ => F.trans hturn) (hk v _)

theorem Frame.readVector {n entry : BitVec 4} {k : Vectored → State → Stored} (hk : ∀ v t, (k v t).Holds (R t)) :
    (s.readVector n entry k).Holds (R s) :=
  F.vectorThen fun _ _ => F.vectorThen fun _ _ => F.vectorThen fun _ _ => F.vectorThen fun _ _ =>
    F.vectorThen fun _ t => hk _ t

end

theorem Sound.enterInterrupt (s : State) (n entry : BitVec 4) (oldIc : Word) :
    (s.enterInterrupt n entry oldIc).Holds (Sound s) := by
  refine Stored.Holds.mono (fun _ => Sound.trans (Sound.dev s _)) (Frame.sound.readVector fun v t => ?_)
  split
  · split
    · rename_i h
      obtain ⟨hf, hl⟩ := State.storeWords_faulted h
      exact ⟨hf, hl.sound⟩
    · rename_i u h
      have hl := (State.storeWords_done h).2.2
      refine Sound.trans hl.sound (Sound.trans ?_ (Local.setIc _ _).sound)
      refine Sound.trans ?_ (Sound.writeSw _ _)
      exact Sound.of_eq rfl rfl rfl rfl rfl rfl rfl
  · exact ⟨ok_none _, Sound.refl t⟩

theorem Sound.execBex (n : BitVec 4) (s : State) : Holds (Sound s) (execBex n s) := by
  have henter := Sound.enterInterrupt s intExecutive n (s.ic + 1)
  unfold Machine.execBex
  split
  · rename_i h
    rw [h] at henter
    exact henter
  · rename_i f t h
    rw [h] at henter
    exact henter.2.trans (Local.raise t f henter.1).sound

/-! ### Every instruction -/

theorem exec_sound (i : Instr) (s : State) : Holds (Sound s) (exec i s) := by
  cases hc : Instr.reachesControl i with
  | false => exact Holds.mono (fun _ => Local.sound) (exec_local i s hc)
  | true =>
    cases i
    case xio ra rx addr => exact Sound.execXio ra rx addr s
    case vio ra rx addr => exact Sound.execVio ra rx addr s
    case lst rx addr => exact Sound.execLst rx addr s
    case lsti rx addr => exact Sound.execLsti rx addr s
    case bex n => exact Sound.execBex n s
    case bpt =>
      show Sound s (if s.cfg.hasConsole && s.cfg.consoleConnected then _ else s.advance 1)
      split <;> exact Sound.of_eq rfl rfl rfl rfl rfl rfl rfl
    case builtin opex => exact Frame.sound.execBuiltin opex s fun _ _ t => Sound.adopt t _
    all_goals cases hc

/-! ### The outside (70_reset_and_hazards.md R892) -/

theorem FaultSignal.request_ok (f : FaultSignal) : f.request.ok := by
  cases f
  case parity la i as => exact ok_designators _ la i as
  all_goals exact ok_none _

/-- A change of the devices, with a request of an interrupt or without. -/
theorem Sound.dev_requestIf (s : State) (d : Devices) (b : Bool) (n : BitVec 4) :
    Sound s ({ s with dev := d }.requestIf b n) :=
  (Sound.dev s d).trans (Local.requestIf _ b n).sound

theorem Sound.ite {s a b : State} {p : Prop} [Decidable p] (ha : Sound s a) (hb : Sound s b) :
    Sound s (if p then a else b) := by
  split
  · exact ha
  · exact hb

theorem Sound.applyEvent (s : State) (e : Event) : Sound s (s.applyEvent e) := by
  cases e
  case tickA => exact Sound.ite (Sound.dev_requestIf s _ _ _) (Sound.refl s)
  case tickB => exact Sound.ite (Sound.dev_requestIf s _ _ _) (Sound.refl s)
  case goTick => exact Sound.ite (Sound.dev s _) (Sound.refl s)
  case interrupt n => exact (Local.requestIf s _ n).sound
  case channel level number =>
    cases level
    case level1 => exact Sound.dev_requestIf s _ true _
    case level2 => exact Sound.dev_requestIf s _ true _
  case fault f => exact Sound.ite (Local.setFault s _ (FaultSignal.request_ok f)).sound (Sound.refl s)
  case dma r => exact (Local.dmaReference s r).sound
  case badParity words => exact Sound.of_eq rfl rfl rfl rfl rfl rfl rfl
  case discretes w => exact Sound.dev s _
  case consoleByte b => exact Sound.ite (Sound.dev s _) (Sound.refl s)
  case consoleTake => exact Sound.dev s _
  case consoleStatus w => exact Sound.dev s _

theorem Sound.applyEvents : ∀ (es : List Event) (s : State), Sound s (s.applyEvents es)
  | [], s => Sound.refl s
  | e :: rest, s => (Sound.applyEvent s e).trans (Sound.applyEvents rest _)

theorem Sound.runEvents (s : State) : Sound s s.runEvents := by
  unfold State.runEvents
  split
  · exact Sound.refl s
  · refine Sound.trans ?_ (Sound.applyEvents _ _)
    exact Sound.of_eq rfl rfl rfl rfl rfl rfl rfl

/-! ### The boundary and the step -/

theorem Sound.recognize : ∀ (fuel : Nat) (s : State), Sound s (State.recognize fuel s)
  | 0, s => Sound.refl s
  | fuel + 1, s => by
    unfold State.recognize
    split
    · exact Sound.refl s
    · rename_i n _
      have henter := Sound.enterInterrupt s n 0 s.ic
      split
      · rename_i t h
        rw [h] at henter
        exact Sound.trans henter ((Sound.runEvents t).trans (Sound.recognize fuel _))
      · rename_i f t h
        rw [h] at henter
        have hraise := henter.2.trans ((Local.raise t f henter.1).sound.trans (Sound.runEvents _))
        exact Sound.ite hraise (hraise.trans (Sound.recognize fuel _))

theorem Sound.interruptPoint (s : State) : Sound s s.interruptPoint := by
  unfold State.interruptPoint
  split
  · exact Sound.refl s
  · exact (Local.setIc s _).sound

theorem Sound.endEnable (s : State) (was : Bool) : Sound s (s.endEnable was) :=
  Sound.ite (Sound.of_eq rfl rfl rfl rfl rfl rfl rfl) (Sound.refl s)

theorem Sound.boundary (s : State) (was : Bool) : Sound s (s.boundary was) := by
  have henable := (Sound.runEvents s).trans (Sound.endEnable _ was)
  have hrecognize := henable.trans
    (Sound.ite (p := (s.runEvents.endEnable was).halted = true) (Sound.refl _)
      ((Sound.interruptPoint _).trans (Sound.recognize (16 + (s.runEvents.endEnable was).schedule.length) _)))
  exact hrecognize.trans (Sound.of_eq rfl rfl rfl rfl rfl rfl rfl)

/-- A fetch changes what DMA changes; its fault has reserved bits zero. -/
theorem State.fetchInstr_local (s : State) : Local s s.fetchInstr.2 ∧ ∀ e, s.fetchInstr.1 = .error e → e.ok := by
  have one := Local.turn s
  have two := one.trans (Local.turn s.turn)
  unfold State.fetchInstr
  split
  · rename_i e h
    exact ⟨one, fun _ he => by cases he; exact State.fetch_error h⟩
  · split
    · exact ⟨one, fun _ he => by cases he; exact ok_none _⟩
    · split
      · exact ⟨one, fun _ he => by cases he; exact ok_none _⟩
      · split
        · exact ⟨one, fun _ he => nomatch he⟩
        · split
          · rename_i e h
            exact ⟨two, fun _ he => by cases he; exact State.fetch_error h⟩
          · exact ⟨two, fun _ he => nomatch he⟩

theorem Sound.runInstruction (s : State) : Holds (Sound s) s.runInstruction := by
  obtain ⟨hfetch, herror⟩ := s.fetchInstr_local
  unfold State.runInstruction
  split
  · rename_i e t h
    rw [h] at hfetch herror
    exact Frame.sound.holds_trans hfetch.sound (Frame.sound.stop (herror e rfl))
  · rename_i i t h
    rw [h] at hfetch
    exact Frame.sound.holds_trans hfetch.sound (exec_sound i t)

/-- A step that answers a state is an instruction and its boundary. -/
theorem step_next {s t : State} (h : step s = .next t) :
    ∃ u, s.runInstruction = .next u ∧ t = u.boundary s.enblPending := by
  cases hh : s.halted with
  | true => simp [step_halted hh] at h
  | false =>
    rw [step_running hh] at h
    cases hr : s.runInstruction with
    | next u =>
      rw [hr] at h
      cases h
      exact ⟨u, rfl, rfl⟩
    | fault r => simp [hr, finishStep] at h
    | refused r => simp [hr, finishStep] at h

end Sys2Proof.Machine

/-! ### The statements -/

namespace Sys2Proof.Certificates

open Sys2Proof.Machine

/-- Settles O39: empty memories, cleared registers, and page registers that hold page numbers below 16. -/
theorem resetIsSound : Obligations.ResetIsSound := by
  have hpages : pageRegistersOk defaultConfig resetPages := by
    intro i
    have hi : resetPages[i] = resetPage i.val := by
      simp [resetPages]
    refine ⟨?_, trivial⟩
    rw [hi, resetPage]
    have hlt : i.val % 16 < 16 := Nat.mod_lt _ (by decide)
    generalize i.val % 16 = k at hlt
    interval_cases k <;> rfl
  exact ⟨⟨rfl, rfl⟩, ⟨rfl, rfl⟩, by decide, rfl, rfl, hpages, hpages⟩

/-- Settles O40: the fetch, every instruction and the boundary each keep the invariant. -/
theorem stepKeepsInv : Obligations.StepKeepsInv := by
  intro s t hinv ht
  obtain ⟨u, hu, rfl⟩ := step_next ht
  have hrun := Sound.runInstruction s
  rw [hu] at hrun
  have hsound := Sound.trans hrun (Sound.boundary u s.enblPending)
  exact ⟨hsound.inv hinv, hsound.cfg, hsound.rom, rfl⟩

end Sys2Proof.Certificates
end

section
/-! Bits counted from the most significant end, the bit instructions as a `State.after`, and the statements
RegisterBitsAndTests, MemoryBitWrites. -/

namespace Sys2Proof.Machine

/-! ### Bits of a word (41_bit.md R320, R330) -/

/-- Bit `n` from the most significant end is the power of two `15 - n`. -/
theorem bitMask_eq_twoPow : ∀ n : BitVec 4, bitMask n = BitVec.twoPow 16 (15 - n.toNat) := by decide

theorem setBit_eq (n : BitVec 4) (w : Word) : setBit n w = w ||| BitVec.twoPow 16 (15 - n.toNat) := by
  rw [setBit, bitMask_eq_twoPow]

theorem resetBit_eq (n : BitVec 4) (w : Word) : resetBit n w = w &&& ~~~BitVec.twoPow 16 (15 - n.toNat) := by
  rw [resetBit, bitMask_eq_twoPow]

theorem testBitCs_eq_bitCs (n : BitVec 4) (w : Word) : testBitCs n (stdBit w n) = bitCs n.toNat w := by
  have hn : n = 0#4 ↔ n.toNat = 0 := by rw [← BitVec.toNat_inj]; rfl
  simp only [testBitCs, stdBit, bitCs, hn]

/-- The variable forms take the low four bits of RA. -/
theorem State.toNat_bitNumber (s : State) (ra : Reg) : (s.bitNumber ra).toNat = (s.reg ra).toNat % 16 := by
  rw [State.bitNumber, BitVec.extractLsb'_toNat, Nat.shiftRight_zero]

/-! ### Ends of the rules -/

/-- A rule that writes one register and goes on leaves CS as it was. -/
theorem State.setReg_advance_eq_after (s : State) (r : Reg) (v len : Word) :
    (s.setReg r v).advance len = s.after (set1 s.reg r v) s.cs 0 (s.ic + len) := by
  rw [State.advance_eq_after, State.after_setReg, State.reg_setReg]
  rfl

theorem State.setReg_setIc_eq_after (s : State) (r : Reg) (v ic : Word) :
    (s.setReg r v).setIc ic = s.after (set1 s.reg r v) s.cs 0 ic := by
  have h := State.setReg_advance_eq_after s r v (ic - s.ic)
  rw [State.advance, State.setReg_ic, add_sub_cancel] at h
  exact h

section
variable {s : State} (len : Word) (c : Word → BitVec 4)

/-- A rule that reads one word and writes only CS. -/
theorem State.readThen_finishCs {la w : Word} (h : s.read la = .ok w) :
    (s.readThen la fun w t => .next (t.finishCs (c w) len)) =
      .next ((s.turns 1).after s.reg (c w) 0 (s.ic + len)) := by
  rw [State.readThen_ok h]
  exact congrArg Host.Outcome.next (State.finishCs_turns s 1 (c w) len)

theorem State.indirectThen_finishCs {addr p w : Word} {rx : Reg} (hp : s.read (s.daLong addr rx) = .ok p)
    (h : (s.turns 1).read p = .ok w) :
    (s.indirectThen addr rx fun w t => .next (t.finishCs (c w) len)) =
      .next ((s.turns 2).after s.reg (c w) 0 (s.ic + len)) := by
  rw [State.indirectThen_ok hp h, State.finishCs_turns]

end

section
variable {s : State} {pa : Nat} (hw : s.mem.wf = true)
include hw

/-- A word read in one turn and written back changed in the next. -/
theorem State.stores_modifyWord (k : Nat) {la w : Word} (f : Word → Word) (hr : (s.turns k).read la = .ok w)
    (h : s.writable la pa) :
    Stores ((s.turns k).modifyWord f la) (s.turns (k + 1)) [(pa, f w)] fun t => t.after s.reg s.cs 0 (s.ic + 2) := by
  rw [State.modifyWord, State.readThen_turns hr]
  exact State.stores_turns hw (k + 1) (f w) 2 h

theorem State.stores_pointerThen_modifyWord {addr p w : Word} {rx : Reg} (f : Word → Word)
    (hp : s.read (s.daLong addr rx) = .ok p) (hr : (s.turns 1).read p = .ok w) (h : s.writable p pa) :
    Stores (s.pointerThen addr rx fun da t => t.modifyWord f da) (s.turns 2) [(pa, f w)]
      fun t => t.after s.reg s.cs 0 (s.ic + 2) := by
  rw [State.pointerThen, State.readThen_ok hp]
  exact State.stores_modifyWord hw 1 f hr h

end

/-- A word that is written reads back, and no other byte changes. -/
theorem Written.physWrite {s : State} (pa : Nat) (w : Word) (hw : s.mem.wf = true) :
    Written s pa w (s.physWrite pa w) := by
  have heven : (s.mem.put (2 * pa) (Word.upper w)).wf = true := Memory.wf_put _ _ _ hw
  refine ⟨_, rfl, Memory.wf_put _ _ _ heven, fun a => ?_⟩
  rw [Memory.writeWord]
  split_ifs with h0 h1
  · rw [h0, Memory.get_put_other _ _ _ (by omega), Memory.get_put_same (lo := 0) _ _ _ hw]
  · rw [h1, Memory.get_put_same (lo := 0) _ _ _ heven]
  · rw [Memory.get_put_other _ _ _ h1, Memory.get_put_other _ _ _ h0]

/-- TSB reads and writes in one and the same turn. -/
theorem execTsb_written {s : State} {n : BitVec 4} {rx : Reg} {addr w : Word} {pa : Nat} (hw : s.mem.wf = true)
    (hr : s.read (s.daLong addr rx) = .ok w) (h : s.writable (s.daLong addr rx) pa) :
    ∃ u, Written (s.turns 1) pa (setBit n w) u ∧
      execTsb n rx addr s = .next (u.after s.reg (bitCs n.toNat w) 0 (s.ic + 2)) := by
  obtain ⟨_, htranslate⟩ := State.writable_turns 1 h
  refine ⟨(s.turns 1).physWrite pa (setBit n w), Written.physWrite pa _ (State.turns_wf 1 hw), ?_⟩
  have hend : ((s.turns 1).physWrite pa (setBit n w)).finishCs (testBitCs n (stdBit w n)) 2 =
      ((s.turns 1).physWrite pa (setBit n w)).after s.reg (bitCs n.toNat w) 0 (s.ic + 2) := by
    rw [State.finishCs_eq_after, testBitCs_eq_bitCs, State.physWrite_ic, State.turns_ic, ← State.turns_reg 1 s]
    rfl
  rw [execTsb, State.readThen_ok hr, ← hend]
  show (match (s.turns 1).translate .cpu .write (s.turns 1).as (some (s.turns 1).ps) ((s.turns 1).daLong addr rx) with
    | .ok pa => _ | .error f => _) = _
  rw [State.turns_succ, State.turns_zero, State.turn_daLong]
  rw [State.turns_succ, State.turns_zero] at htranslate
  rw [htranslate]

end Sys2Proof.Machine

/-! ### The statements -/

namespace Sys2Proof.Certificates

open Sys2Proof.Machine

/-- Settles O1: one rule of a register written and one of CS written; the bit numbers as powers of two. -/
theorem registerBitsAndTests : Obligations.RegisterBitsAndTests := by
  constructor
  case left =>
    intro s n ra rb k
    have hk : (s.bitNumber ra).toNat = k := s.toNat_bitNumber ra
    rw [← hk, ← setBit_eq, ← resetBit_eq, ← setBit_eq, ← resetBit_eq]
    exact ⟨congrArg Host.Outcome.next (s.setReg_advance_eq_after rb _ 1),
      congrArg Host.Outcome.next (s.setReg_advance_eq_after rb _ 1),
      congrArg Host.Outcome.next (s.setReg_advance_eq_after rb _ 1),
        congrArg Host.Outcome.next (s.setReg_advance_eq_after rb _ 1)⟩
  case right =>
    intro s n ra rb rx addr p w
    rw [← s.toNat_bitNumber ra]
    simp only [← testBitCs_eq_bitCs]
    have hregister (k : BitVec 4) := s.finishCs_turns 0 (testBitCs k (stdBit (s.reg rb) k)) 1
    exact ⟨congrArg Host.Outcome.next (hregister n), congrArg _ (hregister (s.bitNumber ra)),
      State.readThen_finishCs 2 fun w => testBitCs n (stdBit w n),
      State.indirectThen_finishCs 2 fun w => testBitCs n (stdBit w n)⟩

/-- Settles O2: the word is read and stored in the next turn, or by TSB in the same one. -/
theorem memoryBitWrites : Obligations.MemoryBitWrites := by
  intro s n rx addr p w pa hw one zero ends
  have hone : one = setBit n w := (setBit_eq n w).symm
  have hzero : zero = resetBit n w := (resetBit_eq n w).symm
  rw [hone, hzero]
  constructor
  case left =>
    intro hr h
    exact ⟨State.stores_modifyWord hw 0 (setBit n) hr h, State.stores_modifyWord hw 0 (resetBit n) hr h,
      execTsb_written hw hr h⟩
  case right =>
    intro hp hr h
    exact ⟨State.stores_pointerThen_modifyWord hw (setBit n) hp hr h,
      State.stores_pointerThen_modifyWord hw (resetBit n) hp hr h⟩

end Sys2Proof.Certificates
end

section
/-! Requests of any interrupt as part of a `State.after`, the shifts as arithmetic, and the statements CountedShifts,
RegisterCountShifts. -/

namespace Sys2Proof.Machine

/-! ### Requests before the end of a rule -/

/-- What two requests release is what one request of both releases. -/
theorem releaseHold_releaseHold (m m' : Word) (held : List Word) :
    releaseHold m' (releaseHold m held) = releaseHold (m ||| m') held := by
  simp [releaseHold, BitVec.not_or, BitVec.and_assoc]

/-- The pending bit of a request that is made or not. -/
def requestBits (b : Bool) (n : BitVec 4) : Word := if b then bitMask n else 0

theorem State.requestIf_after_bits (s : State) (b : Bool) (n : BitVec 4) (f : Reg → Word) (cs : BitVec 4)
    (m ic : Word) :
    (s.requestIf b n).after f cs m ic = s.after f cs (requestBits b n ||| m) ic := by
  cases b
  case false =>
    have hm : requestBits false n ||| m = m := BitVec.zero_or
    rw [hm]
    rfl
  case true =>
    have hpi : s.pi ||| bitMask n ||| m = s.pi ||| (bitMask n ||| m) := BitVec.or_assoc _ _ _
    simp only [State.after, State.requestIf, State.request, State.requestMask, requestBits, if_true,
      releaseHold_releaseHold, hpi]

/-- A request as the only one of its rule. -/
theorem State.requestIf_after_zero (s : State) (b : Bool) (n : BitVec 4) (f : Reg → Word) (cs : BitVec 4) (ic : Word) :
    (s.requestIf b n).after f cs 0 ic = s.after f cs (requestBits b n) ic := by
  have hm : requestBits b n ||| 0 = requestBits b n := BitVec.or_zero
  rw [State.requestIf_after_bits, hm]

/-! ### Shifts as arithmetic (42_shift.md R350) -/

section
variable {w : Nat} (v : BitVec w) (n : Nat)

theorem shl_eq_ofNat : shl v n = BitVec.ofNat w (v.toNat * 2 ^ n) := by
  apply BitVec.eq_of_toNat_eq
  rw [shl, BitVec.toNat_shiftLeft, Nat.shiftLeft_eq, BitVec.toNat_ofNat]

theorem shr_eq_ofNat : shr v n = BitVec.ofNat w (v.toNat / 2 ^ n) := by
  apply BitVec.eq_of_toNat_eq
  rw [shr, BitVec.toNat_ushiftRight, Nat.shiftRight_eq_div_pow, BitVec.toNat_ofNat, Nat.mod_eq_of_lt]
  exact lt_of_le_of_lt (Nat.div_le_self _ _) v.isLt

theorem sar_eq_ofInt : sar v n = BitVec.ofInt w (v.toInt / 2 ^ n) := by
  have hquotient : (sar v n).toInt = v.toInt / 2 ^ n := by
    rw [sar, BitVec.toInt_sshiftRight, Int.shiftRight_eq_div_pow, Nat.cast_pow, Nat.cast_ofNat]
  rw [← hquotient, BitVec.ofInt_toInt]

/-- Bits that leave the top re-enter at the bottom; a whole turn changes nothing. -/
theorem rol_eq_rotateLeft (hw : 0 < w) : rol v n = v.rotateLeft n := by
  rw [rol, BitVec.rotateLeft_def]
  have hlt := Nat.mod_lt n hw
  generalize n % w = k at hlt
  rcases Nat.eq_zero_or_pos k with rfl | hk
  · rw [Nat.sub_zero, Nat.mod_self, BitVec.ushiftRight_zero, BitVec.shiftLeft_zero,
      BitVec.ushiftRight_eq_zero (le_refl w), BitVec.or_zero, BitVec.or_self]
  · rw [Nat.mod_eq_of_lt (by omega : w - k < w)]

theorem ror_eq_rotateRight (hw : 0 < w) : ror v n = v.rotateRight n := by
  rw [ror, rol_eq_rotateLeft _ _ hw, BitVec.rotateLeft_def, BitVec.rotateRight_def]
  have hlt := Nat.mod_lt n hw
  generalize n % w = k at hlt
  rcases Nat.eq_zero_or_pos k with rfl | hk
  · rw [Nat.sub_zero, Nat.mod_self, Nat.zero_mod, Nat.sub_zero, BitVec.ushiftRight_zero, BitVec.shiftLeft_zero,
      BitVec.ushiftRight_eq_zero (le_refl w), BitVec.shiftLeft_eq_zero (le_refl w)]
  · rw [Nat.mod_mod, Nat.mod_eq_of_lt (by omega : w - k < w), show w - (w - k) = k by omega, BitVec.or_comm]

end

/-! ### The sign through a left shift (42_shift.md R362, R365) -/

section
variable {w : Nat} (v : BitVec w)

/-- All bits of a word are equal exactly if it is 0 or all ones. -/
theorem eq_zero_or_allOnes_iff : v = 0#w ∨ v = BitVec.allOnes w ↔ ∀ i, i < w → v.getLsbD i = v.msb := by
  constructor
  · rintro (rfl | rfl) i hi
    · simp
    · simp [hi, BitVec.msb_allOnes (show 0 < w by omega)]
  · intro h
    cases hm : v.msb with
    | false => exact .inl (BitVec.eq_of_getLsbD_eq fun i hi => by simp [h i hi, hm])
    | true => exact .inr (BitVec.eq_of_getLsbD_eq fun i hi => by simp [h i hi, hm, hi])

theorem msb_shiftLeft (hw : 0 < w) (k : Nat) : (v <<< k).msb = (decide (k < w) && v.getLsbD (w - 1 - k)) := by
  rw [BitVec.msb_eq_getLsbD_last, BitVec.getLsbD_shiftLeft]
  have hk : (!decide (w - 1 < k)) = decide (k < w) := by
    rw [← decide_not, decide_eq_decide]
    omega
  rw [hk, decide_eq_true (by omega : w - 1 < w), Bool.true_and]

theorem signChanges_eq_false_iff (hw : 0 < w) (c : Nat) :
    signChanges v c = false ↔ ∀ k, k ≤ c → (decide (k < w) && v.getLsbD (w - 1 - k)) = v.msb := by
  simp [signChanges, ← msb_shiftLeft v hw]

theorem signLost_eq_false_iff (hw : 0 < w) {c : Nat} (hc : c ≤ w) :
    signLost v c = false ↔ ∀ k, k ≤ c → (decide (k < w) && v.getLsbD (w - 1 - k)) = v.msb := by
  unfold signLost
  split
  · rename_i hlt
    have hbits := eq_zero_or_allOnes_iff (v.sshiftRight (w - 1 - c))
    rw [BitVec.msb_sshiftRight] at hbits
    have hne : (v.sshiftRight (w - 1 - c) != 0#w && v.sshiftRight (w - 1 - c) != BitVec.allOnes w) = false ↔
        v.sshiftRight (w - 1 - c) = 0#w ∨ v.sshiftRight (w - 1 - c) = BitVec.allOnes w := by
      simp only [Bool.and_eq_false_iff, bne_eq_false_iff_eq]
    rw [hne, hbits]
    constructor
    · intro h k hk
      have hbit := h (c - k) (by omega)
      rw [BitVec.getLsbD_sshiftRight, if_pos (by omega), show w - 1 - c + (c - k) = w - 1 - k by omega] at hbit
      rw [decide_eq_true (by omega : k < w), Bool.true_and, ← hbit, decide_eq_false (by omega : ¬w ≤ c - k)]
      rfl
    · intro h i hi
      rw [BitVec.getLsbD_sshiftRight, decide_eq_false (by omega : ¬w ≤ i), Bool.not_false, Bool.true_and]
      split
      · have hbit := h (c - i) (by omega)
        rwa [decide_eq_true (by omega : c - i < w), Bool.true_and,
          show w - 1 - (c - i) = w - 1 - c + i by omega] at hbit
      · rfl
  · obtain rfl : c = w := by omega
    rw [bne_eq_false_iff_eq]
    constructor
    · rintro rfl k _
      simp
    · intro h
      have hmsb : v.msb = false := by simpa using (h c (le_refl c)).symm
      apply BitVec.eq_of_getLsbD_eq
      intro i hi
      have hbit := h (c - 1 - i) (by omega)
      rw [decide_eq_true (by omega : c - 1 - i < c), Bool.true_and, show c - 1 - (c - 1 - i) = i by omega, hmsb] at hbit
      rw [hbit, BitVec.getLsbD_zero]

/-- The model's test of the top bits finds every change of the sign in the course of the shift. -/
theorem signLost_eq_signChanges (hw : 0 < w) {c : Nat} (hc : c ≤ w) : signLost v c = signChanges v c :=
  Bool.eq_iff_iff.2 (by
    rw [← not_iff_not, Bool.not_eq_true, Bool.not_eq_true, signLost_eq_false_iff v hw hc,
      signChanges_eq_false_iff v hw])

theorem signChanges_zero : signChanges v 0 = false := by
  simp [signChanges, BitVec.msb]

end

/-! ### Counts in a register (42_shift.md R360) -/

section
variable {w : Nat} (c : Int)

theorem countTooBig_iff : countTooBig w c = true ↔ (w : Int) < c ∨ c < -(w : Int) := by
  rw [countTooBig, decide_eq_true_iff]
  omega

variable (v : BitVec w)

/-- A shift of 0 places is the right shift of 0 places. -/
theorem shiftBy_eq (left right : BitVec w → Nat → BitVec w) (h0 : right v 0 = v) :
    shiftBy left right c v =
      if (w : Int) < c ∨ c < -(w : Int) then v else if 0 < c then left v c.toNat else right v (-c).toNat := by
  have hbig : w < c.natAbs ↔ (w : Int) < c ∨ c < -(w : Int) := by omega
  rw [shiftBy]
  simp only [hbig]
  congr 2
  split
  · rfl
  · rw [show (-c).toNat = 0 by omega, h0]

/-- An arithmetic shift requests past the width, or when the sign changes on the way. -/
theorem arithmeticOverflow_iff (hw : 0 < w) :
    arithmeticOverflow c v = true ↔ (w : Int) < c ∨ c < -(w : Int) ∨ signChanges v c.toNat = true := by
  rw [arithmeticOverflow, Bool.or_eq_true, countTooBig_iff, or_assoc]
  by_cases hbig : (w : Int) < c
  · simp only [hbig, true_or]
  · have hc : c.toNat ≤ w := by omega
    rw [signLost_eq_signChanges v hw hc]
    by_cases hpos : 0 < c
    · simp only [hpos, decide_true, Bool.true_and]
    · rw [show c.toNat = 0 by omega, signChanges_zero, Bool.and_false]

/-- The word that a fixed point overflow request sets in PI. -/
theorem requestBits_eq_ite {b : Bool} {p : Prop} [Decidable p] (h : b = true ↔ p) :
    requestBits b intFixedOverflow = if p then 0x0800#16 else 0#16 := if_congr h rfl rfl

end

/-! ### What a shift leaves -/

section
variable (s : State)

theorem State.shiftEnd_eq_after (r : Reg) (v : Word) :
    s.shiftEnd r v = s.after (set1 s.reg r v) (signCs false v.toInt) 0 (s.ic + 1) := s.loadTo_turns 0 r v 1

theorem State.shiftEnd2_eq_after (r : Reg) (v : Long) :
    s.shiftEnd2 r v = s.after (setLong s.reg r v) (signCs false v.toInt) 0 (s.ic + 1) := by
  rw [State.shiftEnd2, State.finish2_eq_after, set2_hi_lo, pzn_eq_signCs]

theorem State.shiftVar_eq_after (left right : Word → Nat → Word) (o : Bool) (ra rb : Reg) {r : Word}
    (h : shiftBy left right (s.reg rb).toInt (s.reg ra) = r) :
    s.shiftVar left right o ra rb =
      s.after (set1 s.reg ra r) (signCs false r.toInt) (requestBits o intFixedOverflow) (s.ic + 1) := by
  rw [State.shiftVar, State.shiftCount, h, State.shiftEnd_eq_after, State.requestIf_after_zero, State.requestIf_reg,
    State.requestIf_ic]

theorem State.shiftVar2_eq_after (left right : Long → Nat → Long) (o : Bool) (ra rb : Reg) {r : Long}
    (h : shiftBy left right (s.reg rb).toInt (s.pair ra) = r) :
    s.shiftVar2 left right o ra rb =
      s.after (setLong s.reg ra r) (signCs false r.toInt) (requestBits o intFixedOverflow) (s.ic + 1) := by
  rw [State.shiftVar2, State.shiftCount, h, State.shiftEnd2_eq_after, State.requestIf_after_zero, State.requestIf_reg,
    State.requestIf_ic]

end

section
variable {w : Nat} (c : Int) (v : BitVec w)

theorem shiftBy_logical :
    shiftBy shl shr c v =
      if (w : Int) < c ∨ c < -(w : Int) then v
      else if 0 < c then BitVec.ofNat w (v.toNat * 2 ^ c.toNat) else BitVec.ofNat w (v.toNat / 2 ^ (-c).toNat) := by
  rw [shiftBy_eq c v shl shr (BitVec.ushiftRight_zero v), shl_eq_ofNat, shr_eq_ofNat]

theorem shiftBy_arithmetic :
    shiftBy shl sar c v =
      if (w : Int) < c ∨ c < -(w : Int) then v
      else if 0 < c then BitVec.ofNat w (v.toNat * 2 ^ c.toNat) else BitVec.ofInt w (v.toInt / 2 ^ (-c).toNat) := by
  rw [shiftBy_eq c v shl sar BitVec.sshiftRight_zero, shl_eq_ofNat, sar_eq_ofInt]

theorem shiftBy_cyclic (hw : 0 < w) :
    shiftBy rol ror c v =
      if (w : Int) < c ∨ c < -(w : Int) then v else if 0 < c then v.rotateLeft c.toNat
        else v.rotateRight (-c).toNat := by
  have h0 : ror v 0 = v := by
    rw [ror_eq_rotateRight v 0 hw, BitVec.rotateRight_def, Nat.zero_mod, Nat.sub_zero, BitVec.ushiftRight_zero,
      BitVec.shiftLeft_eq_zero (le_refl w), BitVec.or_zero]
  rw [shiftBy_eq c v rol ror h0, rol_eq_rotateLeft v _ hw, ror_eq_rotateRight v _ hw]

end

end Sys2Proof.Machine

/-! ### The statements -/

namespace Sys2Proof.Certificates

open Sys2Proof.Machine

/-- Settles O3: each shift as arithmetic, then the one rule of a shifted register and the one of a pair. -/
theorem countedShifts : Obligations.CountedShifts := by
  intro s n rb v d one two _ _
  have single {r r' : Word} (h : r = r') : (.next (s.shiftEnd rb r) : Out) = one r' := by
    rw [h, State.shiftEnd_eq_after]
  have double {r r' : Long} (h : r = r') : (.next (s.shiftEnd2 rb r) : Out) = two r' := by
    rw [h, State.shiftEnd2_eq_after]
  exact ⟨single (shl_eq_ofNat v n), single (shr_eq_ofNat v n), single (sar_eq_ofInt v n),
    single (rol_eq_rotateLeft v n (by decide)), double (shl_eq_ofNat d n), double (shr_eq_ofNat d n),
    double (sar_eq_ofInt d n), double (rol_eq_rotateLeft d n (by decide))⟩

/-- Settles O4: the value by the sign of the count, the request by its size and, arithmetic, by the sign bit. -/
theorem registerCountShifts : Obligations.RegisterCountShifts := by
  intro s ra rb v d c big one two l r
  have limit (k : Int) : (k < c ∨ c < -k) ↔ (k < c ∨ c < -k ∨ false = true) := by simp
  have single {left right : Word → Nat → Word} {o : Bool} {m x y : Word} (hm : requestBits o intFixedOverflow = m)
      (h : shiftBy left right c v = if 16 < c ∨ c < -16 then v else if 0 < c then x else y) :
      (.next (s.shiftVar left right o ra rb) : Out) = one m x y := by
    rw [State.shiftVar_eq_after s left right o ra rb h, hm]
  have double {left right : Long → Nat → Long} {o : Bool} {m : Word} {x y : Long}
      (hm : requestBits o intFixedOverflow = m)
      (h : shiftBy left right c d = if 32 < c ∨ c < -32 then d else if 0 < c then x else y) :
      (.next (s.shiftVar2 left right o ra rb) : Out) = two m x y := by
    rw [State.shiftVar2_eq_after s left right o ra rb h, hm]
  have past16 := requestBits_eq_ite ((countTooBig_iff (w := 16) c).trans (limit 16))
  have past32 := requestBits_eq_ite ((countTooBig_iff (w := 32) c).trans (limit 32))
  refine ⟨?slr, ?sar, ?scr, ?dslr, ?dsar, ?dscr⟩
  case slr => exact single past16 (shiftBy_logical c v)
  case sar => exact single (requestBits_eq_ite (arithmeticOverflow_iff c v (by decide))) (shiftBy_arithmetic c v)
  case scr => exact single past16 (shiftBy_cyclic c v (by decide))
  case dslr => exact double past32 (shiftBy_logical c d)
  case dsar => exact double (requestBits_eq_ite (arithmeticOverflow_iff c d (by decide))) (shiftBy_arithmetic c d)
  case dscr => exact double past32 (shiftBy_cyclic c d (by decide))

end Sys2Proof.Certificates
end

section
/-! The conditions of branches and jumps by the bits of CS, a store of one word, and the statements RelativeBranches,
JumpsAndLinkage. -/

namespace Sys2Proof.Machine

/-! ### Conditions (43_jump_branch.md R391, R392) -/

theorem State.cs_getLsbD (s : State) {k : Nat} (hk : k < 4) : s.cs.getLsbD k = s.sw.getLsbD (12 + k) := by
  rw [State.cs, BitVec.getLsbD_extractLsb', decide_eq_true hk, Bool.true_and]

theorem ne_zero_iff_exists_getLsbD {w : Nat} (v : BitVec w) : v ≠ 0#w ↔ ∃ k, k < w ∧ v.getLsbD k = true := by
  constructor
  · intro h
    by_contra hnone
    refine h (BitVec.eq_of_getLsbD_eq fun k hk => ?_)
    rw [BitVec.getLsbD_zero]
    exact Bool.eq_false_iff.2 fun hbit => hnone ⟨k, hk, hbit⟩
  · rintro ⟨k, _, hbit⟩ rfl
    simp at hbit

/-- A jump is taken by mask 7 or F, or where a bit of the mask stands over the same bit of CS. -/
theorem State.jumpTaken_iff (s : State) (c : BitVec 4) :
    jumpTaken c s.cs = true ↔
      c = 0x7#4 ∨ c = 0xF#4 ∨ ∃ k, k < 4 ∧ c.getLsbD k = true ∧ s.sw.getLsbD (12 + k) = true := by
  have hbits : c &&& s.cs ≠ 0#4 ↔ ∃ k, k < 4 ∧ c.getLsbD k = true ∧ s.sw.getLsbD (12 + k) = true := by
    rw [ne_zero_iff_exists_getLsbD]
    refine exists_congr fun k => and_congr_right fun hk => ?_
    rw [BitVec.getLsbD_and, Bool.and_eq_true, s.cs_getLsbD hk]
  simp only [jumpTaken, Bool.or_eq_true, beq_iff_eq, bne_iff_ne, hbits, or_assoc]

/-! ### Ends of the rules -/

section
variable (s : State)

theorem State.setIc_eq_after (ic : Word) : s.setIc ic = s.after s.reg s.cs 0 ic := by
  have h := s.advance_eq_after (ic - s.ic)
  rwa [State.advance, add_sub_cancel] at h

theorem State.setIc_turns (k : Nat) (ic : Word) : (s.turns k).setIc ic = (s.turns k).after s.reg s.cs 0 ic := by
  rw [State.setIc_eq_after, State.turns_reg, (DmaOnly.turns k s).cs]

/-- The target of a branch: the signed displacement from the branch itself. -/
theorem State.daRelative_eq_ofInt (d : BitVec 8) : s.daRelative d = BitVec.ofInt 16 (s.ic.toInt + d.toInt) := by
  rw [State.daRelative, BitVec.ofInt_add, BitVec.ofInt_toInt]
  rfl

/-- A relative branch on the bits `m` of CS, its condition given as a Bool. -/
theorem State.branchOn_eq_after (m : BitVec 4) (d : BitVec 8) {b : Bool} (hb : s.cs &&& m ≠ 0#4 ↔ b = true) :
    s.branchOn m d =
      s.after s.reg s.cs 0 (if b then BitVec.ofInt 16 (s.ic.toInt + d.toInt) else s.ic + 1) := by
  rw [State.branchOn]
  simp only [hb]
  cases b
  case false => exact s.advance_eq_after 1
  case true => exact (s.setIc_eq_after _).trans (congrArg _ (s.daRelative_eq_ofInt d))

/-- One register and CS written, then IC. -/
theorem State.setReg_setCs_setIc_eq_after (r : Reg) (v : Word) (cs : BitVec 4) (ic : Word) :
    ((s.setReg r v).setCs cs).setIc ic = s.after (set1 s.reg r v) cs 0 ic := by
  have h := s.finish_eq_after r v cs (ic - s.ic)
  rwa [State.finish, State.advance, State.setCs_ic, State.setReg_ic, add_sub_cancel] at h

end

/-! ### The store of one word -/

/-- A word that can be stored is stored in the next turn. -/
theorem State.store_one {s : State} {la : Word} {pa : Nat} (v : Word) (k : State → Out) (h : s.writable la pa) :
    s.store [(la, v)] k = k (s.turn.physWrite pa v) := by
  obtain ⟨hgroup, htranslate⟩ := h
  simp [State.store, State.storeWords, State.firstFault, State.storePicked, hgroup, htranslate]

/-- SJS stores with the stack pointer already stepped down; its target is formed with the old registers. -/
theorem execSjs_stores {s : State} {ra : Reg} {pa : Nat} (rx : Reg) (addr : Word) (hw : s.mem.wf = true)
    (h : s.writable (s.reg ra - 1) pa) :
    Stores (execSjs ra rx addr s) s [(pa, s.ic + 2)]
      fun t => t.after (set1 s.reg ra (s.reg ra - 1)) s.cs 0 (s.daLong addr rx) := by
  have hstepped : (s.setReg ra (s.reg ra - 1)).writable (s.reg ra - 1) pa := h
  refine ⟨s.turn.physWrite pa (s.ic + 2), ⟨_, Written.physWrite pa _ (State.turn_wf hw), rfl⟩, ?_⟩
  rw [execSjs, State.store_one _ _ hstepped, State.turn_setReg]
  have hend := State.setReg_setIc_eq_after (s.turn.physWrite pa (s.ic + 2)) ra (s.reg ra - 1) (s.daLong addr rx)
  have hreg : (s.turn.physWrite pa (s.ic + 2)).reg = s.reg := s.turns_reg 1
  have hcs : (s.turn.physWrite pa (s.ic + 2)).cs = s.cs := s.turn_cs
  rw [hreg, hcs] at hend
  exact congrArg Host.Outcome.next hend

theorem execUrs_eq_after {s : State} {ra : Reg} {t : Word} (h : s.read (s.reg ra) = .ok t) :
    execUrs ra s = .next ((s.turns 1).after (set1 s.reg ra (s.reg ra + 1)) s.cs 0 t) := by
  have hend := State.setReg_setIc_eq_after (s.turns 1) ra (s.reg ra + 1) t
  rw [State.turns_reg, (DmaOnly.turns 1 s).cs] at hend
  rw [execUrs, State.readThen_ok h, State.turn_reg]
  exact congrArg Host.Outcome.next hend

theorem execSoj_eq_after (s : State) (ra rx : Reg) (addr : Word) :
    execSoj ra rx addr s =
      let left := s.reg ra - 1
      .next (s.after (set1 s.reg ra left) (signCs false left.toInt) 0
        (if left = 0#16 then s.ic + 2 else s.daLong addr rx)) := by
  dsimp only
  rw [execSoj, ← pzn_eq_signCs]
  refine congrArg Host.Outcome.next ?_
  rw [ite_not]
  split
  · exact s.finish_eq_after ra _ _ 2
  · exact s.setReg_setCs_setIc_eq_after ra _ _ _

end Sys2Proof.Machine

/-! ### The statements -/

namespace Sys2Proof.Certificates

open Sys2Proof.Machine

/-- Settles O5: each branch by the bits of CS it tests. -/
theorem relativeBranches : Obligations.RelativeBranches := by
  intro s d p z n go
  have hp : p = s.cs.getLsbD 2 := (s.cs_getLsbD (k := 2) (by decide)).symm
  have hz : z = s.cs.getLsbD 1 := (s.cs_getLsbD (k := 1) (by decide)).symm
  have hn : n = s.cs.getLsbD 0 := (s.cs_getLsbD (k := 0) (by decide)).symm
  rw [hp, hz, hn]
  have branch {m : BitVec 4} {f : BitVec 4 → Bool} (hf : ∀ cs, cs &&& m ≠ 0#4 ↔ f cs = true) :
      (.next (s.branchOn m d) : Out) = go (f s.cs) :=
    congrArg Host.Outcome.next (s.branchOn_eq_after m d (hf s.cs))
  have always : (.next (s.setIc (s.daRelative d)) : Out) = go true := by
    rw [State.setIc_eq_after, State.daRelative_eq_ofInt]
    rfl
  exact ⟨always, branch (f := fun cs => cs.getLsbD 1) (by decide), branch (f := fun cs => cs.getLsbD 0) (by decide),
    branch (f := fun cs => cs.getLsbD 1 || cs.getLsbD 0) (by decide),
    branch (f := fun cs => cs.getLsbD 2) (by decide),
    branch (f := fun cs => cs.getLsbD 2 || cs.getLsbD 0) (by decide),
    branch (f := fun cs => cs.getLsbD 2 || cs.getLsbD 1) (by decide)⟩

/-- Settles O6: the jumps by their condition and target, the stack linkage by its one reference. -/
theorem jumpsAndLinkage : Obligations.JumpsAndLinkage := by
  constructor
  case left =>
    intro s c ra rx addr p da take left goes
    have htake : jumpTaken c s.cs = true ↔ take := s.jumpTaken_iff c
    have hgoes (ic : Word) : (.next (s.setIc ic) : Out) = goes s ic :=
      congrArg Host.Outcome.next (s.setIc_eq_after ic)
    have hnext : (.next (s.advance 2) : Out) = goes s (s.ic + 2) := hgoes _
    refine ⟨fun h => ?jc, fun h => ?stays, fun h hp => ?jci, ?js, execSoj_eq_after s ra rx addr⟩
    case jc =>
      rw [← hgoes]
      exact congrArg Host.Outcome.next (if_pos (htake.2 h))
    case stays =>
      have hnot : ¬jumpTaken c s.cs = true := fun hj => h (htake.1 hj)
      rw [← hnext]
      exact ⟨congrArg Host.Outcome.next (if_neg hnot), if_neg hnot⟩
    case jci =>
      have hjump : execJci c rx addr s = s.pointerThen addr rx fun da t => .next (t.setIc da) := if_pos (htake.2 h)
      refine hjump.trans ((State.readThen_ok hp).trans ?_)
      exact congrArg Host.Outcome.next (s.setIc_turns 1 p)
    case js => exact congrArg Host.Outcome.next (s.setReg_setIc_eq_after ra (s.ic + 2) da)
  case right =>
    intro s ra rx addr t pa
    exact ⟨execSjs_stores rx addr, execUrs_eq_after⟩

end Sys2Proof.Certificates
end

section
/-! Rules of several words: the registers as a function of their number, words stored one after the other, and the
statements MultipleLoads, DoubleStores, MultipleStores, MoveMultiple. -/

namespace Sys2Proof.Machine

/-- The next of a row of numbers. -/
theorem add_ofNat_succ {w : Nat} (a : BitVec w) (j : Nat) :
    a + BitVec.ofNat w (j + 1) = a + BitVec.ofNat w j + 1 := by
  rw [BitVec.ofNat_add, ← BitVec.add_assoc]
  rfl

theorem sub_one_sub_ofNat {w : Nat} (a : BitVec w) (j : Nat) :
    a - 1 - BitVec.ofNat w j = a - BitVec.ofNat w (j + 1) := by
  have hsucc : BitVec.ofNat w (j + 1) = 1 + BitVec.ofNat w j := by
    rw [BitVec.ofNat_add, BitVec.add_comm]
    rfl
  rw [hsucc, sub_sub]

/-! ### A state with other registers -/

/-- `s` with the general registers `f`. -/
def State.withRegs (s : State) (f : Reg → Word) : State := { s with regs := Vector.ofFn fun k => f (BitVec.ofFin k) }

section
variable (s : State) (f : Reg → Word)

@[simp] theorem State.withRegs_reg : (s.withRegs f).reg = f := by
  funext r
  simp [State.reg, State.withRegs]

@[simp] theorem State.withRegs_cfg : (s.withRegs f).cfg = s.cfg := by rw [State.withRegs]

@[simp] theorem State.withRegs_ctl : (s.withRegs f).ctl = s.ctl := by rw [State.withRegs]

@[simp] theorem State.withRegs_sw : (s.withRegs f).sw = s.sw := by rw [State.withRegs]

@[simp] theorem State.withRegs_ic : (s.withRegs f).ic = s.ic := by rw [State.withRegs]

@[simp] theorem State.withRegs_cs : (s.withRegs f).cs = s.cs := by rw [State.cs, State.withRegs_sw, State.cs]

theorem State.withRegs_physRead (pa : Nat) : (s.withRegs f).physRead pa = s.physRead pa := by
  simp only [State.physRead, State.romOverlay, State.withRegs]
  rfl

theorem State.withRegs_after (g : Reg → Word) (cs : BitVec 4) (m ic : Word) :
    (s.withRegs f).after g cs m ic = s.after g cs m ic := by
  simp only [State.after, State.withRegs]

theorem State.withRegs_advance (len : Word) : (s.withRegs f).advance len = s.after f s.cs 0 (s.ic + len) := by
  rw [State.advance_eq_after, State.withRegs_reg, State.withRegs_after, State.withRegs_cs, State.withRegs_ic]

theorem State.withRegs_self : s.withRegs s.reg = s := by
  rw [State.withRegs, State.ofFn_reg]

/-- Two states that differ in nothing but registers that read alike are the same. -/
theorem State.eq_withRegs_of_reg {t : State} (h : t = { s with regs := t.regs }) (hreg : t.reg = f) :
    t = s.withRegs f := by
  rw [← hreg, State.withRegs, State.ofFn_reg]
  exact h

theorem State.withRegs_setReg (r : Reg) (v : Word) : (s.withRegs f).setReg r v = s.withRegs (set1 f r v) :=
  State.eq_withRegs_of_reg s _ (by simp only [State.setReg, State.withRegs])
    (by rw [State.reg_setReg, State.withRegs_reg])

/-- DMA does not look at the general registers. -/
theorem State.withRegs_turn : (s.withRegs f).turn = s.turn.withRegs f := by
  have h := State.turn_with s (Vector.ofFn fun k => f (BitVec.ofFin k)) s.ic s.sw s.mask s.ien s.enblPending s.halted
    s.schedule s.raised
  have e := DmaOnly.turn s
  unfold DmaOnly at e
  exact h.trans (by rw [State.withRegs, e])

/-- A reference finds what it finds whatever the general registers hold. -/
theorem State.withRegs_read (la : Word) : (s.withRegs f).read la = s.read la := by
  simp only [State.read, State.cpuRead, State.withRegs_turn, State.withRegs_physRead, State.withRegs_cfg, State.as,
    State.ps, State.withRegs_sw, State.translate_congr (State.withRegs_cfg _ f) (State.withRegs_ctl _ f)]
  rfl

theorem State.withRegs_eq_after : s.withRegs f = s.after f s.cs 0 s.ic := by
  have h := s.withRegs_advance f 0
  have hic : s.ic + 0 = s.ic := BitVec.add_zero _
  rw [State.advance, State.withRegs_ic, hic, State.setIc] at h
  rw [← h, State.withRegs]

end

/-- DMA leaves the configuration alone. -/
@[simp] theorem State.turns_cfg : ∀ (n : Nat) (s : State), (s.turns n).cfg = s.cfg
  | 0, _ => rfl
  | n + 1, s => (State.turns_cfg n s.turn).trans s.turn_cfg

/-- DMA leaves CS alone. -/
@[simp] theorem State.turns_cs (n : Nat) (s : State) : (s.turns n).cs = s.cs := (DmaOnly.turns n s).cs

/-! ### A fault as `State.afterFault` (60_exceptions.md R806) -/

theorem State.raise_eq_afterFault (s : State) (f : FaultReq) :
    s.raise f = s.afterFault (bitMask (f.bit.number s.cfg)) f.bit f.designators (s.free 0) := by
  obtain ⟨b, d⟩ := f
  cases d with
  | none => rfl
  | some w =>
    have hmask : bitMask intMachineError = 0x4000#16 := rfl
    cases h : s.cfg.hasMfsr <;>
      simp [State.raise, State.setFault, State.afterFault, State.request, State.requestMask, State.setIc, State.spend,
        State.free, h, hmask]

/-- A reference that faults with the registers `f` loaded, after `n` references that did not. -/
theorem State.readThen_withRegs_fault {s : State} {n : Nat} {g : Reg → Word} {la : Word} {k : Word → State → Out}
    {f : FaultReq} (h : (s.turns n).read la = .error (.fault f)) :
    ∃ ic : Word, ((s.turns n).withRegs g).readThen la k =
      .next (((s.turns (n + 1)).after g s.cs 0 s.ic).afterFault (bitMask (f.bit.number s.cfg)) f.bit f.designators
        ic) := by
  refine ⟨((s.turns (n + 1)).withRegs g).free 0, ?_⟩
  rw [State.readThen_fault ((State.withRegs_read _ _ _).trans h), State.withRegs_turn, State.turn_turns,
    State.raise_eq_afterFault]
  rw [State.withRegs_cfg, State.turns_cfg, State.withRegs_eq_after, State.turns_cs, State.turns_ic]

theorem State.readThen_withRegs_ok {s : State} {n : Nat} {g : Reg → Word} {la v : Word} {k : Word → State → Out}
    (h : (s.turns n).read la = .ok v) :
    ((s.turns n).withRegs g).readThen la k = k v ((s.turns (n + 1)).withRegs g) := by
  rw [State.readThen_ok ((State.withRegs_read _ _ _).trans h), State.withRegs_turn, State.turn_turns]

/-! ### LM (44_load.md R446) -/

/-- The registers once the first `j` words of an LM are loaded. -/
def lmRegs (s : State) (w : Nat → Word) (j : Nat) : Reg → Word := fun q => if q.toNat < j then w q.toNat else s.reg q

theorem lmRegs_zero (s : State) (w : Nat → Word) : lmRegs s w 0 = s.reg := rfl

theorem lmRegs_succ (s : State) (w : Nat → Word) {j : Nat} (hj : j < 16) :
    set1 (lmRegs s w j) (BitVec.ofNat 4 j) (w j) = lmRegs s w (j + 1) := by
  funext q
  have hq : q = BitVec.ofNat 4 j ↔ q.toNat = j := by
    rw [← BitVec.toNat_inj, BitVec.toNat_ofNat, Nat.mod_eq_of_lt (by omega)]
  simp only [set1, lmRegs, hq]
  by_cases h : q.toNat = j
  · simp [h]
  · have hlt : q.toNat < j + 1 ↔ q.toNat < j := by omega
    simp only [h, if_false, hlt]

/-- The first `j` of `j + m` words of an LM. -/
theorem State.loadRegs_add {s : State} {la : Word} {w : Nat → Word} (m : Nat) :
    ∀ {j : Nat}, j ≤ 16 → (∀ k, k < j → (s.turns k).read (la + BitVec.ofNat 16 k) = .ok (w k)) →
      State.loadRegs (j + m) 0 la s =
        State.loadRegs m j (la + BitVec.ofNat 16 j) ((s.turns j).withRegs (lmRegs s w j))
  | 0, _, _ => by
    have h0 : la + BitVec.ofNat 16 0 = la := BitVec.add_zero la
    rw [Nat.zero_add, h0, lmRegs_zero, State.turns_zero, State.withRegs_self]
  | j + 1, hj, hr => by
    have hnext : la + BitVec.ofNat 16 j + 1 = la + BitVec.ofNat 16 (j + 1) := (add_ofNat_succ _ j).symm
    rw [Nat.add_assoc, Nat.add_comm 1 m,
      State.loadRegs_add (m + 1) (by omega) fun k hk => hr k (by omega), State.loadRegs,
      State.readThen_withRegs_ok (hr j (by omega)), State.withRegs_setReg, lmRegs_succ s w (by omega), hnext]

section
variable {s : State} {n : BitVec 4} {rx : Reg} {addr : Word} {w : Nat → Word}

theorem execLm_eq_after
    (hr : ∀ k, k ≤ n.toNat → (s.turns k).read (s.daLong addr rx + BitVec.ofNat 16 k) = .ok (w k)) :
    execLm n rx addr s = .next ((s.turns (n.toNat + 1)).after (lmRegs s w (n.toNat + 1)) s.cs 0 (s.ic + 2)) := by
  have hall := State.loadRegs_add (w := w) 0 (j := n.toNat + 1) (by omega) fun k hk => hr k (by omega)
  rw [execLm, ← Nat.add_zero (n.toNat + 1), hall, State.loadRegs, State.withRegs_advance, State.turns_cs,
    State.turns_ic]

theorem execLm_fault {j : Nat} {f : FaultReq} (hj : j ≤ n.toNat)
    (hr : ∀ k, k < j → (s.turns k).read (s.daLong addr rx + BitVec.ofNat 16 k) = .ok (w k))
    (hf : (s.turns j).read (s.daLong addr rx + BitVec.ofNat 16 j) = .error (.fault f)) :
    ∃ ic : Word, execLm n rx addr s =
      .next (((s.turns (j + 1)).after (lmRegs s w j) s.cs 0 s.ic).afterFault (bitMask (f.bit.number s.cfg)) f.bit
        f.designators ic) := by
  have hn := n.isLt
  have hfirst := State.loadRegs_add (n.toNat - j + 1) (j := j) (by omega) hr
  rw [show j + (n.toNat - j + 1) = n.toNat + 1 by omega] at hfirst
  rw [execLm, hfirst, State.loadRegs]
  exact State.readThen_withRegs_fault hf

end

/-! ### POPM (44_load.md R455) -/

/-- The registers once the first `j` registers of a POPM from `ra` on are popped. -/
def popRegisters (s : State) (ra : Reg) (w : Nat → Word) (j : Nat) : Reg → Word := fun q =>
  if q = 15#4 then s.reg 15 + BitVec.ofNat 16 j else if (q - ra).toNat < j then w (q - ra).toNat else s.reg q

/-- The references made for the first `k` registers of a POPM: R15 takes no word. -/
def popReferences (ra : Reg) (k : Nat) : Nat := if (15#4 - ra).toNat < k then k - 1 else k

theorem popRegisters_zero (s : State) (ra : Reg) (w : Nat → Word) : popRegisters s ra w 0 = s.reg := by
  funext q
  have h15 : s.reg 15 + BitVec.ofNat 16 0 = s.reg 15 := BitVec.add_zero _
  by_cases h : q = 15#4
  · rw [popRegisters, if_pos h, h15, h]
    rfl
  · rw [popRegisters, if_neg h, if_neg (Nat.not_lt_zero _)]

/-- The place of a register in a POPM. -/
theorem eq_add_ofNat_iff {ra q : Reg} {j : Nat} (hj : j < 16) : q = ra + BitVec.ofNat 4 j ↔ (q - ra).toNat = j := by
  have hmod : (BitVec.ofNat 4 j).toNat = j := by
    rw [BitVec.toNat_ofNat, Nat.mod_eq_of_lt hj]
  constructor
  · rintro rfl
    rw [add_sub_cancel_left, hmod]
  · intro h
    have hq : q - ra = BitVec.ofNat 4 j := BitVec.eq_of_toNat_eq (h.trans hmod.symm)
    rw [← hq, add_sub_cancel]

section
variable {s : State} {ra : Reg} {w : Nat → Word} {j : Nat} (hj : j < 16)
include hj

/-- R15 counts but is not loaded. -/
theorem popRegisters_succ_sp (h : ra + BitVec.ofNat 4 j = 15#4) :
    set1 (popRegisters s ra w j) 15#4 (s.reg 15 + BitVec.ofNat 16 j + 1) = popRegisters s ra w (j + 1) := by
  funext q
  by_cases hq : q = 15#4
  · rw [set1, if_pos hq, popRegisters, if_pos hq, add_ofNat_succ]
  · have hplace : (q - ra).toNat ≠ j := fun e => hq (h ▸ (eq_add_ofNat_iff hj).2 e)
    have hlt : (q - ra).toNat < j + 1 ↔ (q - ra).toNat < j := by omega
    simp only [set1, popRegisters, hq, if_false, hlt]

theorem popRegisters_succ :
    set1 (set1 (popRegisters s ra w j) (ra + BitVec.ofNat 4 j) (w j)) 15#4 (s.reg 15 + BitVec.ofNat 16 j + 1) =
      popRegisters s ra w (j + 1) := by
  funext q
  by_cases hq : q = 15#4
  · rw [set1, if_pos hq, popRegisters, if_pos hq, add_ofNat_succ]
  · simp only [set1, popRegisters, hq, if_false, eq_add_ofNat_iff hj]
    by_cases hplace : (q - ra).toNat = j
    · simp [hplace]
    · have hlt : (q - ra).toNat < j + 1 ↔ (q - ra).toNat < j := by omega
      simp only [hplace, if_false, hlt]

theorem popReferences_succ_sp (h : ra + BitVec.ofNat 4 j = 15#4) : popReferences ra (j + 1) = popReferences ra j := by
  have hplace := (eq_add_ofNat_iff hj).1 h.symm
  rw [popReferences, popReferences, hplace, if_pos (Nat.lt_succ_self j), if_neg (Nat.lt_irrefl j)]
  rfl

theorem popReferences_succ (h : ra + BitVec.ofNat 4 j ≠ 15#4) : popReferences ra (j + 1) = popReferences ra j + 1 := by
  have hplace : (15#4 - ra).toNat ≠ j := fun e => h ((eq_add_ofNat_iff hj).2 e).symm
  unfold popReferences
  split_ifs <;> omega

/-- One register of a POPM. -/
theorem State.popOne_eq (next : State → Out)
    (hr : ra + BitVec.ofNat 4 j ≠ 15#4 →
      (s.turns (popReferences ra j)).read (s.reg 15 + BitVec.ofNat 16 j) = .ok (w j)) :
    ((s.turns (popReferences ra j)).withRegs (popRegisters s ra w j)).popOne (ra + BitVec.ofNat 4 j) next =
      next ((s.turns (popReferences ra (j + 1))).withRegs (popRegisters s ra w (j + 1))) := by
  have hsp : popRegisters s ra w j spReg = s.reg 15 + BitVec.ofNat 16 j := if_pos rfl
  unfold State.popOne
  rw [State.withRegs_reg, hsp]
  by_cases h : ra + BitVec.ofNat 4 j = 15#4
  · rw [if_pos (show _ = spReg from h), State.withRegs_setReg, popReferences_succ_sp hj h, ← popRegisters_succ_sp hj h]
    rfl
  · have hkeep : set1 (popRegisters s ra w j) (ra + BitVec.ofNat 4 j) (w j) spReg = s.reg 15 + BitVec.ofNat 16 j :=
      (if_neg fun e => h e.symm).trans hsp
    rw [if_neg (show ¬_ = spReg from h), State.readThen_withRegs_ok (hr h), State.withRegs_setReg,
      State.withRegs_reg, hkeep,
      State.withRegs_setReg, popReferences_succ hj h, ← popRegisters_succ hj]
    rfl

end

/-- The first `j` registers of a POPM. -/
theorem State.popRegs_add {s : State} {ra : Reg} {w : Nat → Word} (m : Nat) :
    ∀ {j : Nat}, j < 16 →
      (∀ k, k < j → ra + BitVec.ofNat 4 k ≠ 15#4 →
        (s.turns (popReferences ra k)).read (s.reg 15 + BitVec.ofNat 16 k) = .ok (w k)) →
      State.popRegs (j + m) ra s =
        State.popRegs m (ra + BitVec.ofNat 4 j) ((s.turns (popReferences ra j)).withRegs (popRegisters s ra w j))
  | 0, _, _ => by
    have h0 : ra + BitVec.ofNat 4 0 = ra := BitVec.add_zero ra
    have href : popReferences ra 0 = 0 := if_neg (Nat.not_lt_zero _)
    rw [Nat.zero_add, h0, href, popRegisters_zero, State.turns_zero, State.withRegs_self]
  | j + 1, hj, hr => by
    have hnext : ra + BitVec.ofNat 4 j + 1 = ra + BitVec.ofNat 4 (j + 1) := (add_ofNat_succ _ j).symm
    rw [Nat.add_assoc, Nat.add_comm 1 m,
      State.popRegs_add (m + 1) (by omega) fun k hk => hr k (by omega), State.popRegs,
      State.popOne_eq (by omega) _ (hr j (by omega)), hnext]

section
variable {s : State} {ra rb : Reg} {w : Nat → Word}

theorem execPopm_eq_after
    (hr : ∀ k, k ≤ (rb - ra).toNat → ra + BitVec.ofNat 4 k ≠ 15#4 →
      (s.turns (popReferences ra k)).read (s.reg 15 + BitVec.ofNat 16 k) = .ok (w k)) :
    execPopm ra rb s =
      .next ((s.turns (popReferences ra ((rb - ra).toNat + 1))).after (popRegisters s ra w ((rb - ra).toNat + 1)) s.cs 0
        (s.ic + 1)) := by
  have hn := (rb - ra).isLt
  have hall := State.popRegs_add (w := w) 0 (by omega) fun k hk => hr k (Nat.le_of_lt hk)
  rw [execPopm, ← Nat.add_zero (rb - ra).toNat, hall, State.popRegs, State.popOne_eq (by omega) _ (hr _ (le_refl _)),
    State.withRegs_advance, State.turns_cs, State.turns_ic, Nat.add_zero]

theorem execPopm_fault {j : Nat} {f : FaultReq} (hj : j ≤ (rb - ra).toNat) (h15 : ra + BitVec.ofNat 4 j ≠ 15#4)
    (hr : ∀ k, k < j → ra + BitVec.ofNat 4 k ≠ 15#4 →
      (s.turns (popReferences ra k)).read (s.reg 15 + BitVec.ofNat 16 k) = .ok (w k))
    (hf : (s.turns (popReferences ra j)).read (s.reg 15 + BitVec.ofNat 16 j) = .error (.fault f)) :
    ∃ ic : Word, execPopm ra rb s =
      .next (((s.turns (popReferences ra j + 1)).after (popRegisters s ra w j) s.cs 0 s.ic).afterFault
        (bitMask (f.bit.number s.cfg)) f.bit f.designators ic) := by
  have hn := (rb - ra).isLt
  have hfirst := State.popRegs_add ((rb - ra).toNat - j) (j := j) (by omega) hr
  rw [show j + ((rb - ra).toNat - j) = (rb - ra).toNat by omega] at hfirst
  have hpop (next : State → Out) :
      ((s.turns (popReferences ra j)).withRegs (popRegisters s ra w j)).popOne (ra + BitVec.ofNat 4 j) next =
        ((s.turns (popReferences ra j)).withRegs (popRegisters s ra w j)).readThen (s.reg 15 + BitVec.ofNat 16 j)
          fun v t => next ((t.setReg (ra + BitVec.ofNat 4 j) v).setReg spReg
            ((t.setReg (ra + BitVec.ofNat 4 j) v).reg spReg + 1)) := by
    have hsp : popRegisters s ra w j spReg = s.reg 15 + BitVec.ofNat 16 j := if_pos rfl
    unfold State.popOne
    rw [if_neg (show ra + BitVec.ofNat 4 j ≠ spReg from h15), State.withRegs_reg, hsp]
  rw [execPopm, hfirst]
  cases (rb - ra).toNat - j with
  | zero =>
    rw [State.popRegs, hpop]
    exact State.readThen_withRegs_fault hf
  | succ m =>
    rw [State.popRegs, hpop]
    exact State.readThen_withRegs_fault hf

end

/-! ### Stores of several words (20_memory.md R105, R111) -/

section
variable {s : State} (hw : s.mem.wf = true) (k : Nat) {la : Word} {q0 q1 q2 : Nat} (len : Word)
include hw

theorem State.stores_words2 (r : Reg) (h0 : s.writable la q0) (h1 : s.writable (la + 1) q1) :
    Stores ((s.turns k).store (words2 la ((s.turns k).pair r)) fun t => .next (t.advance len)) (s.turns k)
      [(q0, s.reg r), (q1, s.reg (r + 1))] fun t => t.after s.reg s.cs 0 (s.ic + len) := by
  obtain ⟨hgroup, ht0⟩ := State.writable_turns k h0
  obtain ⟨_, ht1⟩ := State.writable_turns k h1
  have hall : (words2 la ((s.turns k).pair r)).map (fun w =>
      (s.turns k).translate .cpu .write (s.turns k).as (some (s.turns k).ps) w.1) = [q0, q1].map Except.ok := by
    simp only [words2, List.map_cons, List.map_nil, ht0, ht1]
  have h := (DmaOnly.turns k s).stores_advance len (State.turns_wf k hw) hgroup hall
  simp only [words2, State.pair, Long.hi_ofWords, Long.lo_ofWords, State.turns_reg] at h ⊢
  exact h

theorem State.stores_words3 (r : Reg) (h0 : s.writable la q0) (h1 : s.writable (la + 1) q1)
    (h2 : s.writable (la + 2) q2) :
    Stores (s.store (words3 la (s.triple r)) fun t => .next (t.advance len)) s
      [(q0, s.reg r), (q1, s.reg (r + 1)), (q2, s.reg (r + 2))] fun t => t.after s.reg s.cs 0 (s.ic + len) := by
  obtain ⟨hgroup, ht0⟩ := h0
  obtain ⟨_, ht1⟩ := h1
  obtain ⟨_, ht2⟩ := h2
  have hall : (words3 la (s.triple r)).map (fun w => s.translate .cpu .write s.as (some s.ps) w.1) =
      [q0, q1, q2].map Except.ok := by
    simp only [words3, List.map_cons, List.map_nil, ht0, ht1, ht2]
  have h := (DmaOnly.refl s).stores_advance len hw hgroup hall
  simp only [words3, State.triple, Ext.w0_ofWords, Ext.w1_ofWords, Ext.w2_ofWords] at h ⊢
  exact h

end

/-! ### STM (45_store.md R497) -/

theorem State.regWords_eq_map (s : State) :
    ∀ (count k : Nat) (la : Word), s.regWords count k la =
      (List.range count).map fun j => (la + BitVec.ofNat 16 j, s.reg (BitVec.ofNat 4 (k + j)))
  | 0, _, _ => rfl
  | count + 1, k, la => by
    have h0 : la + BitVec.ofNat 16 0 = la := BitVec.add_zero la
    have hla (j : Nat) : la + 1 + BitVec.ofNat 16 j = la + BitVec.ofNat 16 (j + 1) := by
      rw [add_ofNat_succ, add_right_comm]
    have hk (j : Nat) : k + 1 + j = k + (j + 1) := by omega
    rw [State.regWords, State.regWords_eq_map s count, List.range_succ_eq_map, List.map_cons, List.map_map, h0]
    simp only [Function.comp_def, Nat.succ_eq_add_one, hla, hk, Nat.add_zero]

theorem execStm_stores {s : State} {n : BitVec 4} {rx : Reg} {addr : Word} {pa : Nat → Nat} (hw : s.mem.wf = true)
    (h : ∀ k, k ≤ n.toNat → s.writable (s.daLong addr rx + BitVec.ofNat 16 k) (pa k)) :
    Stores (execStm n rx addr s) s ((List.range (n.toNat + 1)).map fun k => (pa k, s.reg (BitVec.ofNat 4 k)))
      fun t => t.after s.reg s.cs 0 (s.ic + 2) := by
  have hall : (s.regWords (n.toNat + 1) 0 (s.daLong addr rx)).map
      (fun w => s.translate .cpu .write s.as (some s.ps) w.1) =
        ((List.range (n.toNat + 1)).map pa).map Except.ok := by
    rw [State.regWords_eq_map, List.map_map, List.map_map]
    exact List.map_congr_left fun j hj => (h j (Nat.le_of_lt_succ (List.mem_range.1 hj))).2
  have hstores := (DmaOnly.refl s).stores_advance 2 hw (h 0 (Nat.zero_le _)).1 hall
  rw [State.regWords_eq_map, List.map_map, List.zip_map', ← State.regWords_eq_map] at hstores
  simp only [Function.comp_def, Nat.zero_add] at hstores
  exact hstores

/-! ### PSHM (45_store.md R510) -/

theorem State.pushWords_eq_map (s : State) :
    ∀ (n : Nat) (k : Reg) (sp : Word), s.pushWords n k sp =
      (List.range (n + 1)).map fun j => (sp - BitVec.ofNat 16 (j + 1), s.pushValue (k - BitVec.ofNat 4 j))
  | 0, k, sp => by
    have h0 : k - BitVec.ofNat 4 0 = k := BitVec.sub_zero k
    rw [State.pushWords, List.range_one, List.map_singleton, h0]
    rfl
  | n + 1, k, sp => by
    have h0 : k - BitVec.ofNat 4 0 = k := BitVec.sub_zero k
    have hk (j : Nat) : k - 1 - BitVec.ofNat 4 j = k - BitVec.ofNat 4 (j + 1) := sub_one_sub_ofNat k j
    have hsp (j : Nat) : sp - 1 - BitVec.ofNat 16 (j + 1) = sp - BitVec.ofNat 16 (j + 1 + 1) := sub_one_sub_ofNat sp _
    rw [State.pushWords, State.pushWords_eq_map s n, List.range_succ_eq_map (n := n + 1), List.map_cons,
      List.map_map, h0]
    simp only [Function.comp_def, Nat.succ_eq_add_one, hk, hsp]
    rfl

theorem execPshm_stores {s : State} {ra rb : Reg} {pa : Nat → Nat} (hw : s.mem.wf = true)
    (h : ∀ k, k ≤ (rb - ra).toNat → s.writable (s.reg 15 - BitVec.ofNat 16 (k + 1)) (pa k)) :
    Stores (execPshm ra rb s) (s.spend 1)
      ((List.range ((rb - ra).toNat + 1)).map fun k => (pa k, s.pushValue (rb - BitVec.ofNat 4 k)))
      fun t => t.after (set1 s.reg 15 (s.reg 15 - BitVec.ofNat 16 ((rb - ra).toNat + 1))) s.cs 0 (s.ic + 1) := by
  have hall : (s.pushWords (rb - ra).toNat rb (s.reg spReg)).map
      (fun w => (s.spend 1).translate .cpu .write s.as (some s.ps) w.1) =
        ((List.range ((rb - ra).toNat + 1)).map pa).map Except.ok := by
    rw [State.pushWords_eq_map, List.map_map, List.map_map]
    exact List.map_congr_left fun j hj => (h j (Nat.le_of_lt_succ (List.mem_range.1 hj))).2
  have hlength : (s.pushWords (rb - ra).toNat rb (s.reg spReg)).length = (rb - ra).toNat + 1 := by
    rw [State.pushWords_eq_map, List.length_map, List.length_range]
  have hstored := State.storePicked_storedInTurn (s := s.spend 1) (n := 0) hw hall
  have hdma : DmaOnly (s.spend 1) _ := hstored.dmaOnly
  have hreg : (s.spend 1).reg = s.reg := rfl
  have hcs : (s.spend 1).cs = s.cs := rfl
  refine ⟨(s.spend 1).storePicked s.as (some s.ps) (fun _ => true) 0 (s.pushWords (rb - ra).toNat rb (s.reg spReg)),
    ?_, ?_⟩
  · rw [State.pushWords_eq_map, List.map_map, List.zip_map', ← State.pushWords_eq_map] at hstored
    exact hstored
  · rw [execPshm, if_pos (h 0 (Nat.zero_le _)).1]
    simp only [State.storeWords, State.firstFault_none hall, hlength]
    refine congrArg Host.Outcome.next ?_
    rw [State.setReg_advance_eq_after, hdma.reg, hdma.cs, hdma.ic, hreg, hcs, State.spend_ic]
    rfl

/-! ### MOV (45_store.md R495, R496) -/

theorem set2_eq_set1 (f : Reg → Word) (r : Reg) (hi lo : Word) : set2 f r hi lo = set1 (set1 f r hi) (r + 1) lo :=
  set1_comm f lo hi (reg_ne_add_one r).symm

theorem set1_same (f : Reg → Word) (r : Reg) (v : Word) : set1 f r v r = v := if_pos rfl

theorem set1_other (f : Reg → Word) {r q : Reg} (v : Word) (h : q ≠ r) : set1 f r v q = f q := if_neg h

section
variable (s : State) (f : Reg → Word) (ra : Reg)

theorem State.setReg_eq_withRegs (v : Word) : s.setReg ra v = s.withRegs (set1 s.reg ra v) := by
  rw [← State.withRegs_setReg, State.withRegs_self]

/-- The end of a word transfer, by the count that is left. -/
theorem State.withRegs_moveEnd : (s.withRegs f).moveEnd ra =
    if f (ra + 1) = 0#16 then { s.after f s.cs 0 (s.ic + 1) with resumeIc := some s.ic }
      else s.after f s.cs 0 s.ic := by
  rw [State.moveEnd, State.withRegs_reg]
  split
  · rw [State.withRegs_advance, State.withRegs_ic]
  · exact State.withRegs_eq_after s f

theorem State.spend_moveEnd (n : Nat) : (s.spend n).moveEnd ra = (s.moveEnd ra).spend n := by
  unfold State.moveEnd
  rw [show (s.spend n).reg (ra + 1) = s.reg (ra + 1) from rfl]
  split <;> rfl

/-- Three registers step on: their order does not matter. -/
theorem State.moveStep_of_ne {rb : Reg} (ha : rb ≠ ra) (hb : rb ≠ ra + 1) :
    s.moveStep ra rb =
      s.withRegs (set1 (set2 s.reg ra (s.reg ra + 1) (s.reg (ra + 1) - 1)) rb (s.reg rb + 1)) := by
  have hregs : ((s.setReg ra (s.reg ra + 1)).setReg rb (s.reg rb + 1)) =
      s.withRegs (set1 (set1 s.reg ra (s.reg ra + 1)) rb (s.reg rb + 1)) := by
    rw [State.setReg_eq_withRegs s, State.withRegs_setReg]
  rw [State.moveStep, if_neg (not_or.2 ⟨ha, hb⟩), hregs, State.withRegs_setReg, set2_eq_set1, set1_comm _ _ _ hb]

theorem State.moveStep_of_clash {rb : Reg} (h : rb = ra ∨ rb = ra + 1) :
    s.moveStep ra rb = (s.withRegs (set2 s.reg ra (s.free 0) (s.free 1))).spend 2 := by
  rw [State.moveStep, if_pos h, State.setReg_eq_withRegs s, State.withRegs_setReg, set2_eq_set1]

end

theorem execMov_eq {s : State} {ra rb : Reg} {w : Word} {pa : Nat} (hcount : s.reg (ra + 1) ≠ 0#16)
    (hr : s.read (s.reg rb) = .ok w) (h : s.writable (s.reg ra) pa) :
    execMov ra rb s = .next ((((s.turns 1).turn.physWrite pa w).moveStep ra rb).moveEnd ra) := by
  rw [execMov, if_neg hcount, State.readThen_ok hr, State.turn_reg]
  exact State.store_one w _ (State.writable_turns 1 h)

end Sys2Proof.Machine

/-! ### The statements -/

namespace Sys2Proof.Certificates

open Sys2Proof.Machine

/-- Settles O10: the words one after the other, by induction on how many are loaded. -/
theorem multipleLoads : Obligations.MultipleLoads := by
  intro s n ra rb rx addr w before loaded
  refine ⟨execLm_eq_after, fun j f => execLm_fault, fun h => ?popm, fun j f => execPopm_fault⟩
  have hall := execPopm_eq_after (rb := rb) h
  have hregs : popRegisters s ra w ((rb - ra).toNat + 1) = fun q =>
      if q = 15#4 then s.reg 15 + BitVec.ofNat 16 ((rb - ra).toNat + 1)
      else if (q - ra).toNat ≤ (rb - ra).toNat then w (q - ra).toNat else s.reg q := by
    funext q
    simp only [popRegisters, Nat.lt_succ_iff]
  rw [hregs] at hall
  exact hall

/-- Settles O12: two or three words, after no reference or after the one of the pointer. -/
theorem doubleStores : Obligations.DoubleStores := by
  intro s ra br rx addr p dspl q0 q1 q2 hw ends
  refine ⟨State.stores_words2 hw 0 2 ra, State.stores_words2 hw 0 1 accDouble,
    State.stores_words2 hw 0 1 accDouble, ?dsti,
    State.stores_words3 hw 2 ra⟩
  intro hp h0 h1
  show Stores (execDsti ra rx addr s) _ _ _
  rw [execDsti, State.pointerThen, State.readThen_ok hp]
  exact State.stores_words2 hw 1 2 ra h0 h1

/-- Settles O14: the words as one row of consecutive addresses. -/
theorem multipleStores : Obligations.MultipleStores := by
  intro s n ra rb rx addr pa hw
  exact ⟨execStm_stores hw, fun h => ⟨s.free 0, execPshm_stores hw h⟩⟩

/-- Settles O15: one word moved, then the registers by whether they clash, and IC by the count that is left. -/
theorem moveMultiple : Obligations.MoveMultiple := by
  intro s ra rb w pa hw count ends
  refine ⟨fun h => ?none, fun hcount hr h => ?word⟩
  case none => exact (if_pos h).trans (congrArg Host.Outcome.next (s.advance_eq_after 1))
  case word =>
    have hmov := execMov_eq (rb := rb) hcount hr h
    have hwritten := Written.physWrite (s := (s.turns 1).turn) pa w (State.turn_wf (State.turns_wf 1 hw))
    have hreg : ((s.turns 1).turn.physWrite pa w).reg = s.reg := s.turns_reg 2
    have hcs : ((s.turns 1).turn.physWrite pa w).cs = s.cs := s.turns_cs 2
    have hic : ((s.turns 1).turn.physWrite pa w).ic = s.ic := s.turns_ic 2
    constructor
    · intro ha hb
      refine ⟨_, ⟨_, hwritten, rfl⟩, hmov.trans (congrArg Host.Outcome.next ?_)⟩
      have hleft : set1 (set2 s.reg ra (s.reg ra + 1) (count - 1)) rb (s.reg rb + 1) (ra + 1) = count - 1 := by
        rw [set1_other _ _ hb.symm, set2_eq_set1, set1_same]
      rw [State.moveStep_of_ne _ _ ha hb, State.withRegs_moveEnd, hreg, hcs, hic]
      exact if_congr (by rw [hleft]) rfl rfl
    · intro hclash
      refine ⟨((s.turns 1).turn.physWrite pa w).free 0, ((s.turns 1).turn.physWrite pa w).free 1, _, ⟨_, hwritten, rfl⟩,
        hmov.trans (congrArg Host.Outcome.next ?_)⟩
      have hleft (x y : Word) : set2 s.reg ra x y (ra + 1) = y := by
        rw [set2_eq_set1, set1_same]
      rw [State.moveStep_of_clash _ _ hclash, State.spend_moveEnd, State.withRegs_moveEnd, hreg, hcs, hic, hleft]

end Sys2Proof.Certificates
end

section
/-! Sums in one register and in memory, magnitudes and negatives, quotients as exact arithmetic, and the statements
SingleAddSubtract, MemoryIncrements, AbsoluteAndNegative, SingleDivides, DoubleDivides. -/

namespace Sys2Proof.Machine

/-! ### Sums in one register (46_int_addsub.md R535, R552) -/

section
variable (s : State) (k : Nat) (ra : Reg) (x len : Word)

theorem State.sumTo_turns {r : Sum 16} {exact : Int} (ho : r.overflow = true ↔ Unrepresentable 16 exact) :
    (s.turns k).sumTo ra r len =
      (s.turns k).after (set1 s.reg ra r.value) (signCs r.carry r.value.toInt) (overflow4 16 exact) (s.ic + len) := by
  rw [State.sumTo, State.finish_eq_after, cpzn_eq_signCs, State.requestIf_after _ _ _ _ ho, State.requestIf_reg,
    State.requestIf_ic, State.turns_reg, State.turns_ic]

theorem State.addTo_turns :
    (s.turns k).addTo ra x len =
      (s.turns k).after (set1 s.reg ra (s.reg ra + x))
        (signCs (decide (65536 ≤ (s.reg ra).toNat + x.toNat)) (s.reg ra + x).toInt)
        (overflow4 16 ((s.reg ra).toInt + x.toInt)) (s.ic + len) := by
  rw [State.addTo, State.turns_reg]
  exact State.sumTo_turns s k ra len (addFlags_overflow _ _)

theorem State.subFrom_turns :
    (s.turns k).subFrom ra x len =
      (s.turns k).after (set1 s.reg ra (s.reg ra - x))
        (signCs (decide (x.toNat ≤ (s.reg ra).toNat)) (s.reg ra - x).toInt)
        (overflow4 16 ((s.reg ra).toInt - x.toInt)) (s.ic + len) := by
  rw [State.subFrom, State.turns_reg, State.sumTo_turns s k ra len (subFlags_overflow _ _), subFlags_value,
    subFlags_carry]

end

section
variable {s : State} {la x : Word} (r : Reg) (len : Word) (h : s.read la = .ok x)
include h

theorem State.readThen_addTo :
    (s.readThen la fun x t => .next (t.addTo r x len)) =
      .next ((s.turns 1).after (set1 s.reg r (s.reg r + x))
        (signCs (decide (65536 ≤ (s.reg r).toNat + x.toNat)) (s.reg r + x).toInt)
        (overflow4 16 ((s.reg r).toInt + x.toInt)) (s.ic + len)) := by
  rw [State.readThen_ok h]
  exact congrArg Host.Outcome.next (State.addTo_turns s 1 r x len)

theorem State.readThen_subFrom :
    (s.readThen la fun x t => .next (t.subFrom r x len)) =
      .next ((s.turns 1).after (set1 s.reg r (s.reg r - x))
        (signCs (decide (x.toNat ≤ (s.reg r).toNat)) (s.reg r - x).toInt)
        (overflow4 16 ((s.reg r).toInt - x.toInt)) (s.ic + len)) := by
  rw [State.readThen_ok h]
  exact congrArg Host.Outcome.next (State.subFrom_turns s 1 r x len)

end

/-! ### Sums in memory (46_int_addsub.md R543, R560) -/

/-- The sum replaces the word even when it overflows. -/
theorem State.stores_sumMemory {s : State} {la w : Word} {pa : Nat} {f : Word → Sum 16} {m : Word}
    (hw : s.mem.wf = true) (hr : s.read la = .ok w) (h : s.writable la pa)
    (hm : requestBits (f w).overflow intFixedOverflow = m) :
    Stores (s.sumMemory f la) (s.turns 1) [(pa, (f w).value)]
      fun t => t.after s.reg (signCs (f w).carry (f w).value.toInt) m (s.ic + 2) := by
  have hwritten := Written.physWrite (s := (s.turns 1).turn) pa (f w).value (State.turn_wf (State.turns_wf 1 hw))
  have hreg : ((s.turns 1).turn.physWrite pa (f w).value).reg = s.reg := s.turns_reg 2
  have hic : ((s.turns 1).turn.physWrite pa (f w).value).ic = s.ic := s.turns_ic 2
  refine ⟨_, ⟨_, hwritten, rfl⟩, ?_⟩
  rw [State.sumMemory, State.readThen_ok hr]
  refine (State.store_one _ _ (State.writable_turns 1 h)).trans (congrArg Host.Outcome.next ?_)
  rw [State.finishCs_eq_after, State.requestIf_after_zero, State.requestIf_reg, State.requestIf_ic, cpzn_eq_signCs, hm]
  exact congrArg₂ (fun f ic => State.after _ f _ _ ic) hreg (congrArg (· + 2) hic)

section
variable (w : Word) {n : Nat} (h1 : 1 ≤ n) (h16 : n ≤ 16)
include h16

theorem toNat_shortPositive : (shortPositive n).toNat = n := by
  rw [shortPositive, BitVec.toNat_ofNat, Nat.mod_eq_of_lt (by omega)]

theorem increment_carry : (addFlags w (shortPositive n)).carry = decide (65536 ≤ w.toNat + n) := by
  have h := toNat_shortPositive h16
  rw [addFlags, h]
  rfl

theorem decrement_carry : (subFlags w (shortPositive n)).carry = decide (n ≤ w.toNat) := by
  rw [subFlags_carry, toNat_shortPositive h16]

theorem increment_overflow :
    requestBits (addFlags w (shortPositive n)).overflow intFixedOverflow =
      if w.toInt + n ≤ 32767 then 0#16 else 0x0800#16 := by
  have hlower : -2 ^ 15 ≤ w.toInt := w.le_toInt
  rw [← ite_not]
  refine requestBits_eq_ite ((addFlags_overflow _ _).trans ?_)
  rw [toInt_shortPositive h16, Unrepresentable]
  omega

theorem decrement_overflow :
    requestBits (subFlags w (shortPositive n)).overflow intFixedOverflow =
      if -32768 ≤ w.toInt - n then 0#16 else 0x0800#16 := by
  have hupper : w.toInt < 2 ^ 15 := w.toInt_lt
  rw [← ite_not]
  refine requestBits_eq_ite ((subFlags_overflow _ _).trans ?_)
  rw [toInt_shortPositive h16, Unrepresentable]
  omega

end

/-! ### Magnitudes and negatives (46_int_addsub.md R545, R562) -/

section
variable {w : Nat} (d : BitVec w)

theorem neg_eq_ofInt : 0 - d = BitVec.ofInt w (-d.toInt) := by
  rw [BitVec.ofInt_neg, BitVec.ofInt_toInt]
  exact BitVec.zero_sub d

theorem abs_eq_ofInt : (if d.msb then 0 - d else d) = BitVec.ofInt w |d.toInt| := by
  rw [BitVec.msb_eq_toInt, neg_eq_ofInt]
  by_cases h : d.toInt < 0
  · rw [if_pos (decide_eq_true h), abs_of_neg h]
  · rw [if_neg (by simpa using h), abs_of_nonneg (not_lt.1 h), BitVec.ofInt_toInt]

/-- Only the most negative number has no negative. -/
theorem unrepresentable_neg_iff : Unrepresentable w (-d.toInt) ↔ d.toInt = -2 ^ (w - 1) := by
  have hlower := d.le_toInt
  have hupper := d.toInt_lt
  unfold Unrepresentable
  omega

theorem unrepresentable_abs_iff : Unrepresentable w |d.toInt| ↔ d.toInt = -2 ^ (w - 1) := by
  have hlower := d.le_toInt
  have hupper := d.toInt_lt
  unfold Unrepresentable
  rcases abs_cases d.toInt with ⟨h, _⟩ | ⟨h, _⟩ <;> rw [h] <;> omega

end

theorem beq_minWord_iff (d : Word) : (d == 0x8000#16) = true ↔ d.toInt = -2 ^ (16 - 1) := by
  rw [beq_iff_eq, ← BitVec.toInt_inj]
  rfl

theorem beq_minLong_iff (d : Long) : (d == 0x80000000#32) = true ↔ d.toInt = -2 ^ (32 - 1) := by
  rw [beq_iff_eq, ← BitVec.toInt_inj]
  rfl

theorem State.negateTo_eq_after (s : State) (ra : Reg) {b : Bool} {d : Word} {i : Int}
    (hv : (if b then 0 - d else d) = BitVec.ofInt 16 i) (ho : Unrepresentable 16 i ↔ d.toInt = -2 ^ (16 - 1)) :
    s.negateTo ra b d =
      s.after (set1 s.reg ra (BitVec.ofInt 16 i)) (signCs false (BitVec.ofInt 16 i).toInt) (overflow4 16 i)
        (s.ic + 1) := by
  rw [State.negateTo, hv, State.finish_eq_after, State.requestIf_after _ _ _ _ ((beq_minWord_iff d).trans ho.symm),
    State.requestIf_reg, State.requestIf_ic, pzn_eq_signCs]

theorem State.negateTo2_eq_after (s : State) (ra : Reg) {b : Bool} {d : Long} {i : Int}
    (hv : (if b then 0 - d else d) = BitVec.ofInt 32 i) (ho : Unrepresentable 32 i ↔ d.toInt = -2 ^ (32 - 1)) :
    s.negateTo2 ra b d =
      s.after (setLong s.reg ra (BitVec.ofInt 32 i)) (signCs false (BitVec.ofInt 32 i).toInt) (overflow4 32 i)
        (s.ic + 1) := by
  rw [State.negateTo2, hv, State.finish2_eq_after, set2_hi_lo,
    State.requestIf_after _ _ _ _ ((beq_minLong_iff d).trans ho.symm), State.requestIf_reg, State.requestIf_ic,
    pzn_eq_signCs]

/-! ### Quotients (47_int_muldiv.md R611, R620, R630) -/

/-- The quotient truncated toward zero and its remainder are the only ones. -/
theorem Divides.eq_tdiv {a b q r : Int} (h : Divides a b q r) : b ≠ 0 ∧ q = a.tdiv b ∧ r = a - a.tdiv b * b := by
  obtain ⟨hsum, hlt, hsign⟩ := h
  have hb : b ≠ 0 := by
    rintro rfl
    rw [abs_zero] at hlt
    exact absurd hlt (not_lt.2 (abs_nonneg r))
  have hcomm : r + b * q = a := by
    rw [hsum, Int.mul_comm b q, Int.add_comm]
  have habs : r.natAbs < b.natAbs := by
    rw [Int.abs_eq_natAbs, Int.abs_eq_natAbs] at hlt
    exact Int.ofNat_lt.1 hlt
  have hzero : a = 0 → r = 0 := fun ha =>
    Int.eq_zero_of_dvd_of_natAbs_lt_natAbs ⟨-q, by rw [Int.mul_neg]; omega⟩ habs
  have hq : a.tdiv b = q := by
    rcases le_total 0 a with ha | ha
    · exact ((Int.tdiv_tmod_unique ha hb).2 ⟨hcomm, by omega, by omega⟩).1
    · exact ((Int.tdiv_tmod_unique' ha hb).2 ⟨hcomm, by omega, by omega⟩).1
  exact ⟨hb, hq.symm, by rw [hq]; omega⟩

/-- A quotient of a number of `w` bits leaves their range only for the most negative one divided by minus one. -/
theorem tdiv_outside_iff {m a b : Int} (hm : 0 < m) (hb : b ≠ 0) (hlower : -m ≤ a) (hupper : a < m) :
    (a.tdiv b < -m ∨ m ≤ a.tdiv b) ↔ a = -m ∧ b = -1 := by
  constructor
  · intro h
    have hle := Int.natAbs_tdiv_le_natAbs a b
    have ha : a = -m := by omega
    have hquot : a.natAbs / b.natAbs = a.natAbs := by
      have hdiv : (a.tdiv b).natAbs = a.natAbs / b.natAbs := Int.natAbs_tdiv a b
      omega
    have hone : b.natAbs = 1 := by
      by_contra hne
      have hlt := Nat.div_lt_self (n := a.natAbs) (k := b.natAbs) (by omega) (by omega)
      omega
    refine ⟨ha, ?_⟩
    rcases Int.natAbs_eq b with hb1 | hb1
    · rw [hone] at hb1
      rw [hb1, Int.natCast_one, Int.tdiv_one] at h
      omega
    · rw [hone] at hb1
      exact hb1
  · rintro ⟨rfl, rfl⟩
    right
    rw [Int.tdiv_neg, Int.tdiv_one, neg_neg]

/-- The divide of a signed number by a word: an overflow, or quotient and remainder. -/
def State.divideBy (s : State) (a : Int) (ra : Reg) (x len : Word) : State :=
  if x.toInt = 0 ∨ outOfRange 16 (a.tdiv x.toInt) = true then s.divideOverflow ra len
  else s.quotientTo ra (BitVec.ofInt 16 (a.tdiv x.toInt)) (BitVec.ofInt 16 (a - a.tdiv x.toInt * x.toInt)) len

theorem State.divTo_eq_divideBy (s : State) (ra : Reg) (x len : Word) :
    s.divTo ra x len = s.divideBy (s.pair ra).toInt ra x len := rfl

theorem State.divSingle_eq_divideBy (s : State) (ra : Reg) (x len : Word) :
    s.divSingle ra x len = s.divideBy (s.reg ra).toInt ra x len := by
  refine if_congr (or_congr_right' fun hx => ?_) rfl rfl
  rw [outOfRange_iff]
  exact (tdiv_outside_iff (by decide) hx (s.reg ra).le_toInt (s.reg ra).toInt_lt).symm

section
variable (s : State) (k : Nat) (ra : Reg) (len : Word)

theorem State.quotientTo_turns (q r : Word) :
    (s.turns k).quotientTo ra q r len =
      (s.turns k).after (set2 s.reg ra q r) (signCs false q.toInt) 0 (s.ic + len) := by
  have h := ((s.turns k).setReg ra q).finish_eq_after (ra + 1) r (pzn q) len
  rw [State.after_setReg, State.reg_setReg, State.turns_reg, State.setReg_ic, State.turns_ic, pzn_eq_signCs,
    ← set2_eq_set1] at h
  rw [← h, ← pzn_eq_signCs]
  rfl

/-- The free values of a divide that overflows. -/
theorem State.divideOverflow_turns :
    ∃ (y z : Word) (cs : BitVec 4),
      (s.turns k).divideOverflow ra len =
        ((s.turns k).after (set2 s.reg ra y z) cs 0x0800#16 (s.ic + len)).spend 3 := by
  refine ⟨(s.turns k).free 0, (s.turns k).free 1, ((s.turns k).free 2).extractLsb' 0 4, ?_⟩
  have h := State.requestIf_after_zero (s.turns k) true intFixedOverflow
  rw [State.divideOverflow, State.finish2_eq_after, Long.hi_ofWords, Long.lo_ofWords]
  refine congrArg (State.spend · 3) ((h _ _ _).trans ?_)
  rw [State.request_ic, State.turns_ic]
  exact congrArg (fun f => State.after _ (set2 f ra _ _) _ _ _) (State.turns_reg k s)

theorem State.divideBy_turns {a q r : Int} {x : Word} (h : Divides a x.toInt q r) (hlower : -32768 ≤ q)
    (hupper : q ≤ 32767) :
    (s.turns k).divideBy a ra x len =
      (s.turns k).after (set2 s.reg ra (BitVec.ofInt 16 q) (BitVec.ofInt 16 r)) (signCs false q) 0 (s.ic + len) := by
  obtain ⟨hx, rfl, rfl⟩ := h.eq_tdiv
  have hfits : ¬(x.toInt = 0 ∨ outOfRange 16 (a.tdiv x.toInt) = true) := by
    rw [outOfRange_iff, Unrepresentable]
    omega
  have hq : (BitVec.ofInt 16 (a.tdiv x.toInt)).toInt = a.tdiv x.toInt :=
    BitVec.toInt_ofInt_eq_self (by decide) hlower (Int.lt_add_one_of_le hupper)
  rw [State.divideBy, if_neg hfits, State.quotientTo_turns, hq]

theorem State.divideBy_overflow {a q r : Int} {x : Word}
    (h : x = 0#16 ∨ (Divides a x.toInt q r ∧ (q < -32768 ∨ 32767 < q))) :
    (s.turns k).divideBy a ra x len = (s.turns k).divideOverflow ra len := by
  refine if_pos ?_
  rcases h with rfl | ⟨hd, hout⟩
  · exact Or.inl rfl
  · obtain ⟨_, rfl, _⟩ := hd.eq_tdiv
    refine Or.inr ((outOfRange_iff 16 _).2 ?_)
    unfold Unrepresentable
    omega

theorem State.divTo2_turns {q r : Int} {x : Long} (h : Divides (s.pair ra).toInt x.toInt q r)
    (hupper : q ≤ 2147483647) :
    (s.turns k).divTo2 ra x len =
      (s.turns k).after (setLong s.reg ra (BitVec.ofInt 32 q)) (signCs false q) 0 (s.ic + len) := by
  obtain ⟨hx, rfl, _⟩ := h.eq_tdiv
  have hall := tdiv_outside_iff (m := 2 ^ 31) (by decide) hx (s.pair ra).le_toInt (s.pair ra).toInt_lt
  have hfits : ¬((s.pair ra).toInt = -2147483648 ∧ x.toInt = -1) := by
    intro ho
    rw [ho.1, ho.2] at hupper
    exact absurd hupper (by decide)
  have hq : (BitVec.ofInt 32 ((s.pair ra).toInt.tdiv x.toInt)).toInt = (s.pair ra).toInt.tdiv x.toInt := by
    have hin := fun ho => hfits (hall.1 ho)
    exact BitVec.toInt_ofInt_eq_self (by decide) (by omega) (by omega)
  rw [State.divTo2, State.turns_pair]
  refine (if_neg (not_or.2 ⟨hx, hfits⟩)).trans ?_
  rw [State.finish2_eq_after, set2_hi_lo, pzn_eq_signCs, hq, State.turns_reg, State.turns_ic]

theorem State.divTo2_overflow {x : Long}
    (h : x = 0#32 ∨ ((s.pair ra).toInt = -2147483648 ∧ x = BitVec.allOnes 32)) :
    ∃ (y : Long) (cs : BitVec 4),
      (s.turns k).divTo2 ra x len =
        ((s.turns k).after (setLong s.reg ra y) cs 0x0800#16 (s.ic + len)).spend 3 := by
  have hover : x.toInt = 0 ∨ ((s.pair ra).toInt = -2147483648 ∧ x.toInt = -1) := by
    rcases h with rfl | ⟨ha, rfl⟩
    · exact Or.inl rfl
    · exact Or.inr ⟨ha, by decide⟩
  obtain ⟨y, z, cs, hfree⟩ := State.divideOverflow_turns s k ra len
  refine ⟨Long.ofWords y z, cs, ?_⟩
  rw [← set2_hi_lo, Long.hi_ofWords, Long.lo_ofWords, ← hfree, State.divTo2, State.turns_pair]
  exact if_pos hover

end

section
variable {s : State} {la x : Word} (r : Reg) (len : Word) (h : s.read la = .ok x)
include h

theorem State.readThen_divTo :
    (s.readThen la fun x t => .next (t.divTo r x len)) =
      .next ((s.turns 1).divideBy (s.pair r).toInt r x len) := by
  rw [State.readThen_ok h, State.divTo_eq_divideBy]
  exact congrArg (fun p : Long => Host.Outcome.next ((s.turns 1).divideBy p.toInt r x len)) (s.turns_pair 1 r)

theorem State.readThen_divSingle :
    (s.readThen la fun x t => .next (t.divSingle r x len)) =
      .next ((s.turns 1).divideBy (s.reg r).toInt r x len) := by
  rw [State.readThen_ok h, State.divSingle_eq_divideBy, State.turn_reg]
  rfl

end

end Sys2Proof.Machine

/-! ### The statements -/

namespace Sys2Proof.Certificates

open Sys2Proof.Machine

/-- Settles O16: each addressing mode's operand, then the one rule of the sum and the one of the difference. -/
theorem singleAddSubtract : Obligations.SingleAddSubtract := by
  constructor
  case left =>
    intro s ra rb br rx n addr v dspl adds
    have register (r : Reg) (x len : Word) : (.next (s.addTo r x len) : Out) = adds 0 r x len :=
      congrArg Host.Outcome.next (s.addTo_turns 0 r x len)
    exact ⟨register ra (s.reg rb) 1, register ra (shortPositive n) 1, register ra v 2,
      State.readThen_addTo accSingle 1, State.readThen_addTo accSingle 1, State.readThen_addTo ra 2⟩
  case right =>
    intro s ra rb br rx n addr v dspl subs
    have register (r : Reg) (x len : Word) : (.next (s.subFrom r x len) : Out) = subs 0 r x len :=
      congrArg Host.Outcome.next (s.subFrom_turns 0 r x len)
    exact ⟨register ra (s.reg rb) 1, register ra (shortPositive n) 1, register ra v 2,
      State.readThen_subFrom accSingle 1, State.readThen_subFrom accSingle 1, State.readThen_subFrom ra 2⟩

/-- Settles O18: one rule of a sum in memory, its carry and overflow for a count of 1 to 16. -/
theorem memoryIncrements : Obligations.MemoryIncrements := by
  intro s n rx addr w pa hw h1 h16 hr h sum diff
  have hincrement := State.stores_sumMemory (f := fun w => addFlags w (shortPositive n)) hw hr h
    (increment_overflow w h16)
  have hdecrement := State.stores_sumMemory (f := fun w => subFlags w (shortPositive n)) hw hr h
    (decrement_overflow w h16)
  rw [increment_carry w h16] at hincrement
  rw [decrement_carry w h16, subFlags_value] at hdecrement
  exact ⟨hincrement, hdecrement⟩

/-- Settles O19: magnitude and negative as exact numbers, on a register and on a pair. -/
theorem absoluteAndNegative : Obligations.AbsoluteAndNegative := by
  intro s ra rb d e one two
  have single {b : Bool} {i : Int} (hv : (if b then 0 - d else d) = BitVec.ofInt 16 i)
      (ho : Unrepresentable 16 i ↔ d.toInt = -2 ^ (16 - 1)) : (.next (s.negateTo ra b d) : Out) = one i :=
    congrArg Host.Outcome.next (s.negateTo_eq_after ra hv ho)
  have double {b : Bool} {i : Int} (hv : (if b then 0 - e else e) = BitVec.ofInt 32 i)
      (ho : Unrepresentable 32 i ↔ e.toInt = -2 ^ (32 - 1)) : (.next (s.negateTo2 ra b e) : Out) = two i :=
    congrArg Host.Outcome.next (s.negateTo2_eq_after ra hv ho)
  exact ⟨single (abs_eq_ofInt d) (unrepresentable_abs_iff d), single (neg_eq_ofInt d) (unrepresentable_neg_iff d),
    double (abs_eq_ofInt e) (unrepresentable_abs_iff e), double (neg_eq_ofInt e) (unrepresentable_neg_iff e)⟩

/-- Settles O21: all divides by a word are one rule on the dividend's number. -/
theorem singleDivides : Obligations.SingleDivides := by
  intro s ra rb br rx n addr v dspl q r short long completes
  have divides {i : Instr} (k : Nat) {d : Reg} {a : Int} {x len : Word}
      (hi : exec i s = .next ((s.turns k).divideBy a d x len)) : completes (s.turns k) i d a x len := by
    refine ⟨fun hd hlower hupper => ?_, fun ho => ?_⟩
    · rw [hi, State.divideBy_turns s k d len hd hlower hupper]
    · obtain ⟨y, z, cs, hfree⟩ := State.divideOverflow_turns s k d len
      exact ⟨y, z, cs, by rw [hi, State.divideBy_overflow s k d len ho, hfree]⟩
  have single (d : Reg) (x len : Word) :
      (.next (s.divSingle d x len) : Out) = .next (s.divideBy (short d) d x len) :=
    congrArg Host.Outcome.next (s.divSingle_eq_divideBy d x len)
  refine ⟨divides 0 (single ra (s.reg rb) 1), divides 0 (single ra (shortPositive n) 1), ?disn,
    divides 0 (single ra v 2), divides 0 rfl, divides 0 rfl, ?long, ?base, ?based⟩
  case disn =>
    rw [← shortNegative_eq_ofInt]
    exact divides 0 (single ra (shortNegative n) 1)
  case long => exact fun h => ⟨divides 1 (State.readThen_divSingle ra 2 h), divides 1 (State.readThen_divTo ra 2 h)⟩
  case base => exact fun h => divides 1 (State.readThen_divTo accSingle 1 h)
  case based => exact fun h => divides 1 (State.readThen_divTo accSingle 1 h)

/-- Settles O22: one rule, its operand a register pair or two words read in turn. -/
theorem doubleDivides : Obligations.DoubleDivides := by
  intro s ra rb rx addr hi lo q r a completes
  have divides {i : Instr} (k : Nat) {x : Long} {len : Word}
      (hi : exec i s = .next ((s.turns k).divTo2 ra x len)) : completes (s.turns k) i x len := by
    refine ⟨fun hd hupper => ?_, fun ho => ?_⟩
    · rw [hi, State.divTo2_turns s k ra len hd hupper]
    · obtain ⟨y, cs, hfree⟩ := State.divTo2_overflow s k ra len ho
      exact ⟨y, cs, by rw [hi, hfree]⟩
  refine ⟨divides 0 rfl, fun h0 h1 => divides 2 ?_⟩
  exact State.readThen2_turns (n := 0) (k := fun x t => .next (t.divTo2 ra x 2)) h0 h1

end Sys2Proof.Certificates
end

section
/-! Floating point results and what they request, operands that are normalized or zero, and the statements
FloatArithmetic, ExtendedArithmetic, FloatAbsoluteAndNegative. -/

namespace Sys2Proof.Machine

/-! ### Operands and results (48_float.md R652, R654) -/

theorem usable_iff (w : Nat) (u : Unpacked) : usable w u = true ↔ u.normalOrZero w := by
  rw [usable, Bool.or_eq_true, decide_eq_true_iff, Bool.not_eq_true', shiftable, decide_eq_false_iff_not,
    Unpacked.normalOrZero]
  refine or_congr_right ?_
  rw [not_and_or, not_le, not_lt]
  exact or_comm

theorem usable_both_iff (w : Nat) (a o : Unpacked) :
    (usable w a && usable w o) = true ↔ a.normalOrZero w ∧ o.normalOrZero w := by
  rw [Bool.and_eq_true, usable_iff, usable_iff]

theorem State.requestFloat_after (s : State) (r : FloatResult) (f : Reg → Word) (cs : BitVec 4) (ic : Word) :
    (s.requestFloat r).after f cs 0 ic = s.after f cs (floatRequests r) ic := by
  rw [State.requestFloat, State.requestIf_after_zero, State.requestIf_after_bits]
  rfl

theorem State.requestFloat_reg (s : State) (r : FloatResult) : (s.requestFloat r).reg = s.reg := by
  rw [State.requestFloat, State.requestIf_reg, State.requestIf_reg]

theorem State.requestFloat_ic (s : State) (r : FloatResult) : (s.requestFloat r).ic = s.ic := by
  rw [State.requestFloat, State.requestIf_ic, State.requestIf_ic]

theorem State.storeFloat_eq_afterFloat (s : State) (ra : Reg) (r : FloatResult) (len : Word) :
    s.storeFloat ra r len = s.afterFloat ra r (s.ic + len) := by
  rw [State.storeFloat, State.finish2_eq_after, set2_hi_lo, State.requestFloat_after, State.requestFloat_reg,
    State.requestFloat_ic, pzn_eq_signCs, State.afterFloat]

/-- The three words of a 48-bit value, as numbers. -/
theorem set3_words (f : Reg → Word) (r : Reg) (v : Ext) : set3 f r (Ext.w0 v) (Ext.w1 v) (Ext.w2 v) = setExt f r v := by
  rw [setExt, Ext.w0, Ext.w1, Ext.w2, BitVec.extractLsb', BitVec.extractLsb', BitVec.extractLsb',
    Nat.shiftRight_eq_div_pow, Nat.shiftRight_eq_div_pow, Nat.shiftRight_zero]

theorem State.storeExtended_eq_afterExtended (s : State) (ra : Reg) (r : FloatResult) (len : Word) :
    s.storeExtended ra r len = s.afterExtended ra r (s.ic + len) := by
  rw [State.storeExtended, State.finish3_eq_after, set3_words, State.requestFloat_after, State.requestFloat_reg,
    State.requestFloat_ic, pzn_eq_signCs, State.afterExtended]

/-! ### Results nothing fixes (93_implementation_defined.md U6) -/

/-- Two requests that are made or not set no other bits than theirs. -/
theorem requestBits_within (b c : Bool) :
    (requestBits b intFloatOverflow ||| requestBits c intFloatUnderflow) &&& ~~~0x1200#16 = 0#16 := by
  cases b <;> cases c <;> decide

theorem State.anyFloat_eq_after (s : State) (ra : Reg) (mayUnderflow : Bool) (len : Word) :
    ∃ (v : Long) (o u : Bool), s.anyFloat ra mayUnderflow len =
      (s.after (setLong s.reg ra v) (signCs false v.toInt)
        (requestBits o intFloatOverflow ||| requestBits (mayUnderflow && u) intFloatUnderflow)
        (s.ic + len)).spend 4 := by
  refine ⟨Long.ofWords (s.free 0) (s.free 1), s.freeBit 2, s.freeBit 3, ?_⟩
  rw [State.anyFloat, State.finish2_eq_after, set2_hi_lo, State.requestIf_after_zero, State.requestIf_after_bits,
    State.requestIf_reg, State.requestIf_reg, State.requestIf_ic, State.requestIf_ic, pzn_eq_signCs]

theorem State.anyExtended_eq_after (s : State) (ra : Reg) (len : Word) :
    ∃ (v : Ext) (o u : Bool), s.anyExtended ra len =
      (s.after (setExt s.reg ra v) (signCs false v.toInt)
        (requestBits o intFloatOverflow ||| requestBits u intFloatUnderflow) (s.ic + len)).spend 5 := by
  refine ⟨Ext.ofWords (s.free 0) (s.free 1) (s.free 2), s.freeBit 3, s.freeBit 4, ?_⟩
  rw [State.anyExtended, State.finish3_eq_after, set3_words, State.requestIf_after_zero, State.requestIf_after_bits,
    State.requestIf_reg, State.requestIf_reg, State.requestIf_ic, State.requestIf_ic, pzn_eq_signCs]

/-! ### Two operand instructions (48_float.md R655, R676, R685) -/

/-- What the parameter FP makes of an operation (00_scope.md R5). -/
theorem arithmetic_registerTransfer {c : Config} (h : c.fp = .registerTransfer) (op : FloatOp) (w : Nat) :
    arithmetic c op w = op.algorithm w := by
  rw [arithmetic, h]

theorem State.turns_triple (s : State) (k : Nat) (r : Reg) : (s.turns k).triple r = s.triple r := by
  rw [State.triple, State.turns_reg, State.triple]

section
variable (s : State) (k : Nat) (op : FloatOp) (ra : Reg) (len : Word)

theorem State.float_turns {v : Long} (ha : (unpack24 (s.pair ra)).normalOrZero 24) (ho : (unpack24 v).normalOrZero 24) :
    (s.turns k).float op ra v len =
      (s.turns k).afterFloat ra (arithmetic s.cfg op 24 (unpack24 (s.pair ra)) (unpack24 v)) (s.ic + len) := by
  rw [State.float, State.turns_pair, if_pos ((usable_both_iff 24 _ _).2 ⟨ha, ho⟩), State.storeFloat_eq_afterFloat,
    State.turns_cfg, State.turns_ic]

theorem State.float_turns_any {v : Long}
    (h : ¬((unpack24 (s.pair ra)).normalOrZero 24 ∧ (unpack24 v).normalOrZero 24)) :
    ∃ (x : Long) (m : Word), m &&& ~~~0x1200#16 = 0#16 ∧
      (s.turns k).float op ra v len =
        ((s.turns k).after (setLong s.reg ra x) (signCs false x.toInt) m (s.ic + len)).spend 4 := by
  obtain ⟨x, o, u, hany⟩ := (s.turns k).anyFloat_eq_after ra true len
  refine ⟨x, _, requestBits_within o (true && u), ?_⟩
  rw [State.float, State.turns_pair, if_neg fun hu => h ((usable_both_iff 24 _ _).1 hu), hany, State.turns_reg,
    State.turns_ic]

theorem State.extended_turns {v : Ext} (ha : (unpack40 (s.triple ra)).normalOrZero 40)
    (ho : (unpack40 v).normalOrZero 40) :
    (s.turns k).extended op ra v len =
      (s.turns k).afterExtended ra (arithmetic s.cfg op 40 (unpack40 (s.triple ra)) (unpack40 v)) (s.ic + len) := by
  rw [State.extended, State.turns_triple, if_pos ((usable_both_iff 40 _ _).2 ⟨ha, ho⟩),
    State.storeExtended_eq_afterExtended, State.turns_cfg, State.turns_ic]

theorem State.extended_turns_any {v : Ext}
    (h : ¬((unpack40 (s.triple ra)).normalOrZero 40 ∧ (unpack40 v).normalOrZero 40)) :
    ∃ (x : Ext) (m : Word), m &&& ~~~0x1200#16 = 0#16 ∧
      (s.turns k).extended op ra v len =
        ((s.turns k).after (setExt s.reg ra x) (signCs false x.toInt) m (s.ic + len)).spend 5 := by
  obtain ⟨x, o, u, hany⟩ := (s.turns k).anyExtended_eq_after ra len
  refine ⟨x, _, requestBits_within o u, ?_⟩
  rw [State.extended, State.turns_triple, if_neg fun hu => h ((usable_both_iff 40 _ _).1 hu), hany, State.turns_reg,
    State.turns_ic]

end

/-! ### FABS and FNEG (48_float.md R672, R673) -/

section
variable {o : Unpacked}

theorem fabsolute_eq : fabsolute o =
    if o.m = -8388608 then
      if 127 < o.e + 1 then ⟨⟨8388607, 127⟩, true, false⟩ else ⟨⟨4194304, o.e + 1⟩, false, false⟩
    else if o.m < 0 then ⟨⟨-o.m, o.e⟩, false, false⟩
    else ⟨o, false, false⟩ := rfl

theorem fnegative_eq : fnegative o =
    if o = ⟨-8388608, 127⟩ then ⟨⟨8388607, 127⟩, true, false⟩
    else if o = ⟨4194304, -128⟩ then ⟨⟨0, 0⟩, false, true⟩
    else if o.m = -8388608 then ⟨⟨4194304, o.e + 1⟩, false, false⟩
    else if o.m = 4194304 then ⟨⟨-8388608, o.e - 1⟩, false, false⟩
    else ⟨⟨-o.m, o.e⟩, false, false⟩ := rfl

theorem fabsolute_largest (hm : o.m = -8388608) (he : o.e = 127) : fabsolute o = ⟨⟨8388607, 127⟩, true, false⟩ := by
  rw [fabsolute_eq, if_pos hm, if_pos (by omega)]

theorem fabsolute_minusOne (hm : o.m = -8388608) (he : o.e < 127) :
    fabsolute o = ⟨⟨4194304, o.e + 1⟩, false, false⟩ := by
  rw [fabsolute_eq, if_pos hm, if_neg (by omega)]

theorem fabsolute_other (hm : o.m ≠ -8388608) : fabsolute o = ⟨⟨|o.m|, o.e⟩, false, false⟩ := by
  rw [fabsolute_eq, if_neg hm]
  by_cases hneg : o.m < 0
  · rw [if_pos hneg, abs_of_neg hneg]
  · rw [if_neg hneg, abs_of_nonneg (not_lt.1 hneg)]

theorem unpacked_eq_iff (m e : Int) : o = ⟨m, e⟩ ↔ o.m = m ∧ o.e = e := by
  obtain ⟨_, _⟩ := o
  exact Unpacked.mk.injEq _ _ _ _ ▸ Iff.rfl

theorem fnegative_largest (hm : o.m = -8388608) (he : o.e = 127) : fnegative o = ⟨⟨8388607, 127⟩, true, false⟩ := by
  rw [fnegative_eq, if_pos ((unpacked_eq_iff _ _).2 ⟨hm, he⟩)]

theorem fnegative_smallest (hm : o.m = 4194304) (he : o.e = -128) : fnegative o = ⟨⟨0, 0⟩, false, true⟩ := by
  rw [fnegative_eq, if_neg (by rw [unpacked_eq_iff]; omega), if_pos ((unpacked_eq_iff _ _).2 ⟨hm, he⟩)]

theorem fnegative_minusOne (hm : o.m = -8388608) (he : o.e ≠ 127) :
    fnegative o = ⟨⟨4194304, o.e + 1⟩, false, false⟩ := by
  rw [fnegative_eq, if_neg (by rw [unpacked_eq_iff]; omega), if_neg (by rw [unpacked_eq_iff]; omega), if_pos hm]

theorem fnegative_half (hm : o.m = 4194304) (he : o.e ≠ -128) :
    fnegative o = ⟨⟨-8388608, o.e - 1⟩, false, false⟩ := by
  rw [fnegative_eq, if_neg (by rw [unpacked_eq_iff]; omega), if_neg (by rw [unpacked_eq_iff]; omega), if_neg (by omega),
    if_pos hm]

theorem fnegative_other (hm : o.m ≠ -8388608) (hm' : o.m ≠ 4194304) :
    fnegative o = ⟨⟨-o.m, o.e⟩, false, false⟩ := by
  rw [fnegative_eq, if_neg (by rw [unpacked_eq_iff]; omega), if_neg (by rw [unpacked_eq_iff]; omega), if_neg hm,
    if_neg hm']

end

section
variable (s : State) (f : Unpacked → FloatResult) (mayUnderflow : Bool) (ra rb : Reg)

theorem State.floatUnary_eq_afterFloat {r : FloatResult} (ho : (unpack24 (s.pair rb)).normalOrZero 24)
    (hr : f (unpack24 (s.pair rb)) = r) : s.floatUnary f mayUnderflow ra rb = s.afterFloat ra r (s.ic + 1) := by
  have hu := (usable_iff 24 _).2 ho
  rw [State.floatUnary]
  exact (if_pos hu).trans (by rw [hr, State.storeFloat_eq_afterFloat])

theorem State.floatUnary_any (ho : ¬(unpack24 (s.pair rb)).normalOrZero 24) :
    s.floatUnary f mayUnderflow ra rb = s.anyFloat ra mayUnderflow 1 := by
  rw [State.floatUnary]
  exact if_neg fun hu => ho ((usable_iff 24 _).1 hu)

end

end Sys2Proof.Machine

/-! ### The statements -/

namespace Sys2Proof.Certificates

open Sys2Proof.Machine

/-- Settles O23: one rule of a two operand instruction, its operand a register pair or two words read in turn. -/
theorem floatArithmetic : Obligations.FloatArithmetic := by
  intro s ra rb br rx addr hi lo dspl acc completes o
  have ends (k : Nat) (op : FloatOp) {i : Instr} {r : Reg} {v : Long} {len : Word}
      (hexec : exec i s = .next ((s.turns k).float op r v len)) :
      completes k (op.algorithm 24) i r (unpack24 v) len := by
    refine ⟨fun ha ho => ⟨fun hfp => ?_, fun _ => ⟨arithmetic s.cfg op 24 (acc r) (unpack24 v), ?_⟩⟩, fun h => ?_⟩
    · rw [hexec, State.float_turns s k op r len ha ho, arithmetic_registerTransfer hfp]
      rfl
    · rw [hexec, State.float_turns s k op r len ha ho]
      rfl
    · obtain ⟨x, m, hm, hany⟩ := State.float_turns_any s k op r len h
      exact ⟨x, m, hm, by rw [hexec, hany]⟩
  have reads {la : Word} (h0 : s.read la = .ok hi) (h1 : (s.turns 1).read (la + 1) = .ok lo) (op : FloatOp) {i : Instr}
      (r : Reg) (len : Word) (hexec : exec i s = s.readThen2 la fun v t => .next (t.float op r v len)) :
      completes 2 (op.algorithm 24) i r o len :=
    ends 2 op (hexec.trans (State.readThen2_turns (n := 0) (k := fun v t => .next (t.float op r v len)) h0 h1))
  refine ⟨ends 0 .add rfl, ends 0 .sub rfl, ends 0 .mul rfl, ends 0 .div rfl, fun h0 h1 => ?base, fun h0 h1 => ?based,
    fun h0 h1 => ?long⟩
  case base =>
    exact ⟨reads h0 h1 .add accDouble 1 rfl, reads h0 h1 .sub accDouble 1 rfl, reads h0 h1 .mul accDouble 1 rfl,
      reads h0 h1 .div accDouble 1 rfl⟩
  case based =>
    exact ⟨reads h0 h1 .add accDouble 1 rfl, reads h0 h1 .sub accDouble 1 rfl, reads h0 h1 .mul accDouble 1 rfl,
      reads h0 h1 .div accDouble 1 rfl⟩
  case long =>
    exact ⟨reads h0 h1 .add ra 2 rfl, reads h0 h1 .sub ra 2 rfl, reads h0 h1 .mul ra 2 rfl, reads h0 h1 .div ra 2 rfl⟩

/-- Settles O24: as in single precision, on three registers or three words read in turn. -/
theorem extendedArithmetic : Obligations.ExtendedArithmetic := by
  intro s ra rb rx addr w0 w1 w2 acc completes o
  have ends (k : Nat) (op : FloatOp) {i : Instr} {v : Ext} {len : Word}
      (hexec : exec i s = .next ((s.turns k).extended op ra v len)) :
      completes k (op.algorithm 40) i (unpack40 v) len := by
    refine ⟨fun ha ho => ⟨fun hfp => ?_, fun _ => ⟨arithmetic s.cfg op 40 (acc ra) (unpack40 v), ?_⟩⟩, fun h => ?_⟩
    · rw [hexec, State.extended_turns s k op ra len ha ho, arithmetic_registerTransfer hfp]
      rfl
    · rw [hexec, State.extended_turns s k op ra len ha ho]
      rfl
    · obtain ⟨x, m, hm, hany⟩ := State.extended_turns_any s k op ra len h
      exact ⟨x, m, hm, by rw [hexec, hany]⟩
  refine ⟨ends 0 .add rfl, ends 0 .sub rfl, ends 0 .mul rfl, ends 0 .div rfl, fun h0 h1 h2 => ?long⟩
  have reads (op : FloatOp) {i : Instr}
      (hexec : exec i s = s.readThen3 (s.daLong addr rx) fun v t => .next (t.extended op ra v 2)) :
      completes 3 (op.algorithm 40) i o 2 :=
    ends 3 op (hexec.trans
      (State.readThen3_turns (n := 0) (k := fun v t => .next (t.extended op ra v 2)) h0 h1 h2))
  exact ⟨reads .add rfl, reads .sub rfl, reads .mul rfl, reads .div rfl⟩

/-- Settles O25: the cases of the two functions, then the one rule of their result. -/
theorem floatAbsoluteAndNegative : Obligations.FloatAbsoluteAndNegative := by
  intro s ra rb o number overflows
  refine ⟨fun ho => ?cases, fun ho => ⟨?fabs, ?fneg⟩⟩
  case cases =>
    have fabs {r : FloatResult} (hr : fabsolute o = r) : exec (.fabs ra rb) s = .next (s.afterFloat ra r (s.ic + 1)) :=
      congrArg Host.Outcome.next (s.floatUnary_eq_afterFloat fabsolute false ra rb ho hr)
    have fneg {r : FloatResult} (hr : fnegative o = r) : exec (.fneg ra rb) s = .next (s.afterFloat ra r (s.ic + 1)) :=
      congrArg Host.Outcome.next (s.floatUnary_eq_afterFloat fnegative true ra rb ho hr)
    have hupper : o.e ≤ 127 := Int.le_of_lt_add_one (BitVec.toInt_lt (w := 8))
    refine ⟨fun hm he => ⟨fabs (fabsolute_largest hm he), fneg (fnegative_largest hm he)⟩,
      fun hm he => ⟨fabs (fabsolute_minusOne hm (by omega)), fneg (fnegative_minusOne hm he)⟩,
      fun hm => fabs (fabsolute_other (ne_of_gt hm)), fun hm he => fneg (fnegative_smallest hm he),
      fun hm he => fneg (fnegative_half hm he), fun hm hm' => fneg (fnegative_other hm hm')⟩
  case fabs =>
    obtain ⟨v, b, _, hany⟩ := s.anyFloat_eq_after ra false 1
    refine ⟨v, requestBits b intFloatOverflow ||| requestBits false intFloatUnderflow, ?_, ?_⟩
    · cases b <;> decide
    · exact congrArg Host.Outcome.next ((s.floatUnary_any fabsolute false ra rb ho).trans hany)
  case fneg =>
    obtain ⟨v, b, u, hany⟩ := s.anyFloat_eq_after ra true 1
    exact ⟨v, _, requestBits_within b (true && u),
      congrArg Host.Outcome.next ((s.floatUnary_any fnegative true ra rb ho).trans hany)⟩

end Sys2Proof.Certificates
end

section
/-! The floating point algorithms on exact numbers: units of the last mantissa bit, normalization, alignment, the cut of
a product and a quotient, and the statements FloatResultsAreNumbers, FloatRounding. -/

namespace Sys2Proof.Machine

/-! ### Mantissas and exact numbers (48_float.md R650) -/

/-- A mantissa of `w` bits. -/
def Fits (w : Nat) (m : Int) : Prop := -2 ^ (w - 1) ≤ m ∧ m < 2 ^ (w - 1)

/-- The exact number of a mantissa 1: one unit of the last mantissa bit at exponent `e`. -/
def lastBit (w : Nat) (e : Int) : ℚ := (2 : ℚ) ^ e / 2 ^ (w - 1)

theorem value_eq_mul_lastBit (w : Nat) (u : Unpacked) : u.value w = u.m * lastBit w u.e := by
  rw [Unpacked.value, lastBit]
  ring

theorem lastBit_pos (w : Nat) (e : Int) : 0 < lastBit w e := by
  unfold lastBit
  positivity

theorem lastBit_add_natCast (w : Nat) (e : Int) (k : Nat) : lastBit w (e + k) = 2 ^ k * lastBit w e := by
  rw [lastBit, zpow_add₀ two_ne_zero, zpow_natCast, lastBit]
  ring

theorem lastBit_sub_natCast (w : Nat) (e : Int) (k : Nat) : 2 ^ k * lastBit w (e - k) = lastBit w e := by
  rw [← lastBit_add_natCast, sub_add_cancel]

/-- The range of a mantissa is twice that of the mantissas with a bit to spare. -/
theorem two_pow_pred {w : Nat} (hw : 2 ≤ w) : (2 : Int) ^ (w - 1) = 2 * 2 ^ (w - 2) := by
  rw [← pow_succ', show w - 2 + 1 = w - 1 by omega]

theorem shiftable_iff (w : Nat) (m : Int) : shiftable w m = true ↔ -2 ^ (w - 2) ≤ m ∧ m < 2 ^ (w - 2) :=
  decide_eq_true_iff

theorem normalOrZero_of_not_shiftable {w : Nat} {u : Unpacked} (h : shiftable w u.m = false) : u.normalOrZero w := by
  rw [← usable_iff, usable, h]
  exact Bool.or_true _

/-! ### Normalization (48_float.md R651) -/

/-- Each shift doubles the mantissa inside its range; the loop ends on one that has no bit to spare, or with its
fuel. -/
theorem normalizeLoop_spec {w : Nat} (hw : 2 ≤ w) :
    ∀ (fuel : Nat) (m e : Int), Fits w m →
      ∃ j : Nat, j ≤ fuel ∧ normalizeLoop w fuel m e = ⟨m * 2 ^ j, e - j⟩ ∧ Fits w (m * 2 ^ j) ∧
        (shiftable w (m * 2 ^ j) = false ∨ j = fuel)
  | 0, m, e, hm => ⟨0, le_refl 0, by simp [normalizeLoop], by simpa using hm, Or.inr rfl⟩
  | fuel + 1, m, e, hm => by
    by_cases hs : shiftable w m = true
    · have hfits : Fits w (2 * m) := by
        obtain ⟨hlower, hupper⟩ := (shiftable_iff w m).1 hs
        have htwo := two_pow_pred hw
        constructor <;> omega
      obtain ⟨j, hj, heq, hrange, hend⟩ := normalizeLoop_spec hw fuel (2 * m) (e - 1) hfits
      have hmul : 2 * m * 2 ^ j = m * 2 ^ (j + 1) := by ring
      rw [hmul] at heq hrange hend
      refine ⟨j + 1, by omega, ?_, hrange, hend.imp_right (congrArg Nat.succ)⟩
      rw [normalizeLoop, if_pos hs, heq, Nat.cast_succ, ← sub_sub, sub_right_comm]
    · refine ⟨0, by omega, ?_, by simpa using hm, Or.inl ?_⟩
      · simp [normalizeLoop, hs]
      · simpa using hs

/-- A mantissa that is not zero has no bit to spare after as many shifts as it has bits. -/
theorem normalizeLoop_normal {w : Nat} (hw : 2 ≤ w) {m e : Int} (hm : Fits w m) (h0 : m ≠ 0) :
    ∃ j : Nat, j ≤ w ∧ normalizeLoop w w m e = ⟨m * 2 ^ j, e - j⟩ ∧ Fits w (m * 2 ^ j) ∧
      shiftable w (m * 2 ^ j) = false := by
  obtain ⟨j, hj, heq, hrange, hend⟩ := normalizeLoop_spec hw w m e hm
  refine ⟨j, hj, heq, hrange, hend.resolve_right ?_⟩
  rintro rfl
  obtain ⟨hlower, hupper⟩ := hrange
  have htwo : (2 : Int) ^ j = 2 * 2 ^ (j - 1) := by
    rw [← pow_succ', show j - 1 + 1 = j by omega]
  have hpos : (0 : Int) < 2 ^ (j - 1) := by positivity
  rcases lt_or_gt_of_ne h0 with hneg | hgt
  · nlinarith
  · nlinarith

section
variable {w : Nat} (hw : 2 ≤ w) {m e : Int} (hm : Fits w m)
include hw hm

theorem fnorm_fits : Fits w (fnorm w m e).m := by
  unfold fnorm
  split
  · exact ⟨by simp, by positivity⟩
  · next h0 =>
    obtain ⟨j, _, heq, hrange, _⟩ := normalizeLoop_normal (e := e) hw hm h0
    rw [heq]
    exact hrange

theorem fnorm_normalOrZero : (fnorm w m e).normalOrZero w := by
  unfold fnorm
  split
  · exact Or.inl rfl
  · next h0 =>
    obtain ⟨j, _, heq, _, hs⟩ := normalizeLoop_normal (e := e) hw hm h0
    rw [heq]
    exact normalOrZero_of_not_shiftable hs

/-- Normalization leaves the number as it is. -/
theorem fnorm_value : (fnorm w m e).value w = m * lastBit w e := by
  rw [value_eq_mul_lastBit]
  unfold fnorm
  split
  · next h0 =>
    rw [h0]
    simp
  · next h0 =>
    obtain ⟨j, _, heq, _, _⟩ := normalizeLoop_normal (e := e) hw hm h0
    rw [heq, ← lastBit_sub_natCast w e j]
    push_cast
    ring

theorem fnorm_exponent (h0 : m ≠ 0) : e - w ≤ (fnorm w m e).e ∧ (fnorm w m e).e ≤ e := by
  obtain ⟨j, hj, heq, _, _⟩ := normalizeLoop_normal (e := e) hw hm h0
  rw [fnorm, if_neg h0, heq]
  constructor <;> simp only <;> omega

theorem fnorm_mantissa_ne_zero (h0 : m ≠ 0) : (fnorm w m e).m ≠ 0 := by
  obtain ⟨j, _, heq, _, _⟩ := normalizeLoop_normal (e := e) hw hm h0
  rw [fnorm, if_neg h0, heq]
  exact mul_ne_zero h0 (pow_ne_zero j two_ne_zero)

end

/-- A mantissa with no bit to spare is not shifted. -/
theorem fnorm_of_not_shiftable {w : Nat} {m e : Int} (h0 : m ≠ 0) (h : shiftable w m = false) :
    fnorm w m e = ⟨m, e⟩ := by
  rw [fnorm, if_neg h0]
  cases w with
  | zero => rfl
  | succ n => rw [normalizeLoop, h]; rfl

/-! ### Results (48_float.md R652) -/

/-- The end of the algorithms: the normalized number, or an underflow. -/
def normalResult (w : Nat) (m e : Int) : FloatResult :=
  if (fnorm w m e).e < -128 then floatUnderflow else .plain (fnorm w m e)

/-- What every result of an algorithm is. -/
def FloatResult.Proper (w : Nat) (r : FloatResult) : Prop :=
  r.value.normalOrZero w ∧ r.value.inRange w ∧
    (r.overflow = true → r.underflow = false ∧
      (r.value = ⟨2 ^ (w - 1) - 1, 127⟩ ∨ r.value = ⟨-2 ^ (w - 1), 127⟩)) ∧
    (r.underflow = true → r.value = ⟨0, 0⟩)

section
variable {w : Nat}

theorem inRange_of_fits {u : Unpacked} (h : Fits w u.m) (hlower : -128 ≤ u.e) (hupper : u.e ≤ 127) : u.inRange w :=
  ⟨h.1, h.2, hlower, hupper⟩

theorem Unpacked.inRange.fits {u : Unpacked} (h : u.inRange w) : Fits w u.m := ⟨h.1, h.2.1⟩

theorem plain_proper {u : Unpacked} (hn : u.normalOrZero w) (hr : u.inRange w) : (FloatResult.plain u).Proper w :=
  ⟨hn, hr, fun h => absurd h Bool.false_ne_true, fun h => absurd h Bool.false_ne_true⟩

theorem fits_zero : Fits w 0 := ⟨by simp, by positivity⟩

theorem floatUnderflow_proper : floatUnderflow.Proper w :=
  ⟨Or.inl rfl, inRange_of_fits fits_zero (by decide) (by decide), fun h => absurd h Bool.false_ne_true, fun _ => rfl⟩

theorem floatOverflow_proper (hw : 2 ≤ w) (negative : Bool) : (floatOverflow w negative).Proper w := by
  have htwo := two_pow_pred hw
  have hpos : (0 : Int) < 2 ^ (w - 2) := by positivity
  cases negative with
  | false =>
    refine ⟨Or.inr (Or.inl ?_), inRange_of_fits ⟨?_, ?_⟩ (show -128 ≤ 127 by decide) (le_refl 127),
      fun _ => ⟨rfl, Or.inl rfl⟩,
      fun h => absurd h Bool.false_ne_true⟩ <;> simp only [floatOverflow, Bool.false_eq_true, if_false] <;> omega
  | true =>
    refine ⟨Or.inr (Or.inr ?_), inRange_of_fits ⟨?_, ?_⟩ (show -128 ≤ 127 by decide) (le_refl 127),
      fun _ => ⟨rfl, Or.inr rfl⟩,
      fun h => absurd h Bool.false_ne_true⟩ <;> simp only [floatOverflow, if_true] <;> omega

theorem normalResult_proper (hw : 2 ≤ w) {m e : Int} (hm : Fits w m) (he : e ≤ 127) :
    (normalResult w m e).Proper w := by
  unfold normalResult
  split
  · exact floatUnderflow_proper
  · next hlower =>
    refine plain_proper (fnorm_normalOrZero hw hm) (inRange_of_fits (fnorm_fits hw hm) (not_lt.1 hlower) ?_)
    by_cases h0 : m = 0
    · rw [fnorm, if_pos h0]
      decide
    · exact le_trans (fnorm_exponent hw hm h0).2 he

theorem normalResult_value (hw : 2 ≤ w) {m e : Int} (hm : Fits w m) (hu : (normalResult w m e).underflow = false) :
    (normalResult w m e).value.value w = m * lastBit w e := by
  unfold normalResult at hu ⊢
  split at hu
  · exact absurd hu (by decide)
  · next h => rw [if_neg h, FloatResult.plain, fnorm_value hw hm]

end

/-! ### Sums and differences (48_float.md R655) -/

/-- The mantissas of the operands at the exponent of the sum, and that exponent. -/
def alignedLeft (a o : Unpacked) : Int := if a.e - o.e < 0 ∧ o.m ≠ 0 then sra a.m (-(a.e - o.e)) else a.m

@[inherit_doc alignedLeft]
def alignedRight (a o : Unpacked) : Int := if 0 < a.e - o.e ∧ a.m ≠ 0 then sra o.m (a.e - o.e) else o.m

@[inherit_doc alignedLeft]
def alignedExponent (a o : Unpacked) : Int := if a.m = 0 ∨ (a.e - o.e < 0 ∧ o.m ≠ 0) then o.e else a.e

/-- The result of a sum of mantissas, shifted back by one bit where it overflows. -/
def sumResult (w : Nat) (sum e : Int) : FloatResult :=
  if outOfRange w sum then
    if 127 < e + 1 then floatOverflow w (decide (sum < 0)) else normalResult w (sum / 2) (e + 1)
  else normalResult w sum e

theorem faddsub_eq (w : Nat) (op : Int → Int → Int) (a o : Unpacked) :
    faddsub w op a o = sumResult w (op (alignedLeft a o) (alignedRight a o)) (alignedExponent a o) := rfl

theorem not_outOfRange_iff {w : Nat} {m : Int} : ¬outOfRange w m = true ↔ Fits w m := by
  rw [outOfRange_iff, Unrepresentable, Fits, not_or, not_lt, not_le]

theorem sra_fits {w : Nat} {m : Int} (h : Fits w m) (k : Int) : Fits w (sra m k) := by
  obtain ⟨hlower, hupper⟩ := h
  have hd : (0 : Int) < 2 ^ k.toNat := by positivity
  have hm : (0 : Int) < 2 ^ (w - 1) := by positivity
  refine ⟨(Int.le_ediv_iff_mul_le hd).2 ?_, (Int.ediv_lt_iff_lt_mul hd).2 ?_⟩ <;> nlinarith

/-- The bits a shift drops are worth less than one last bit. -/
theorem sra_value {w : Nat} (m e : Int) {k : Int} (hk : 0 ≤ k) :
    ∃ x : ℚ, m * lastBit w e = sra m k * lastBit w (e + k) + x ∧ 0 ≤ x ∧ x < lastBit w (e + k) := by
  obtain ⟨n, rfl⟩ := Int.eq_ofNat_of_zero_le hk
  have hd : (0 : Int) < 2 ^ n := by positivity
  have hlast := lastBit_pos w e
  have hlower : ((2 ^ n * (m / 2 ^ n) : Int) : ℚ) ≤ m := Int.cast_le.2 (Int.mul_ediv_self_le (ne_of_gt hd))
  have hupper : (m : ℚ) < ((2 ^ n * (m / 2 ^ n) + 2 ^ n : Int) : ℚ) := Int.cast_lt.2 (Int.lt_mul_ediv_self_add hd)
  push_cast at hlower hupper
  refine ⟨m * lastBit w e - sra m n * lastBit w (e + n), by ring, ?_, ?_⟩ <;>
    rw [lastBit_add_natCast, sra, Int.toNat_natCast] <;> nlinarith

section
variable {w : Nat} {a o : Unpacked}

theorem alignedLeft_fits (h : Fits w a.m) : Fits w (alignedLeft a o) := by
  unfold alignedLeft
  split
  · exact sra_fits h _
  · exact h

theorem alignedRight_fits (h : Fits w o.m) : Fits w (alignedRight a o) := by
  unfold alignedRight
  split
  · exact sra_fits h _
  · exact h

theorem alignedExponent_le (a o : Unpacked) : alignedExponent a o ≤ max a.e o.e := by
  unfold alignedExponent
  split
  · exact le_max_right _ _
  · exact le_max_left _ _

theorem aligned_of_same_exponent (h : a.e = o.e) : alignedLeft a o = a.m ∧ alignedRight a o = o.m := by
  constructor
  · exact if_neg fun hc => by omega
  · exact if_neg fun hc => by omega

/-- The operands are what is left of them after the alignment, but for dropped bits worth less than one last bit. -/
theorem aligned_values (w : Nat) (a o : Unpacked) :
    ∃ x y : ℚ, a.value w = alignedLeft a o * lastBit w (alignedExponent a o) + x ∧
      o.value w = alignedRight a o * lastBit w (alignedExponent a o) + y ∧ 0 ≤ x ∧ 0 ≤ y ∧
      x + y < lastBit w (alignedExponent a o) ∧ (a.e = o.e → x = 0 ∧ y = 0) := by
  rw [value_eq_mul_lastBit, value_eq_mul_lastBit]
  by_cases ha : a.m = 0
  · have hleft : alignedLeft a o = 0 := by
      unfold alignedLeft sra
      rw [ha]
      simp
    have hright : alignedRight a o = o.m := if_neg fun h => h.2 ha
    have he : alignedExponent a o = o.e := if_pos (Or.inl ha)
    refine ⟨0, 0, ?_, ?_, le_refl 0, le_refl 0, ?_, fun _ => ⟨rfl, rfl⟩⟩
    · rw [hleft, ha]
      simp
    · rw [hright, he, add_zero]
    · rw [add_zero]
      exact lastBit_pos _ _
  by_cases hlt : a.e - o.e < 0 ∧ o.m ≠ 0
  · have hright : alignedRight a o = o.m := if_neg fun h => by omega
    have hleft : alignedLeft a o = sra a.m (-(a.e - o.e)) := if_pos hlt
    have he : alignedExponent a o = o.e := if_pos (Or.inr hlt)
    obtain ⟨x, hx, hx0, hx1⟩ := sra_value (w := w) a.m a.e (k := -(a.e - o.e)) (by omega)
    rw [show a.e + -(a.e - o.e) = o.e by omega] at hx hx1
    refine ⟨x, 0, ?_, ?_, hx0, le_refl 0, ?_, fun h => by omega⟩
    · rw [hleft, he, hx]
    · rw [hright, he, add_zero]
    · rwa [add_zero, he]
  · have hleft : alignedLeft a o = a.m := if_neg hlt
    have he : alignedExponent a o = a.e := if_neg (not_or.2 ⟨ha, hlt⟩)
    by_cases hgt : 0 < a.e - o.e
    · have hright : alignedRight a o = sra o.m (a.e - o.e) := if_pos ⟨hgt, ha⟩
      obtain ⟨y, hy, hy0, hy1⟩ := sra_value (w := w) o.m o.e (k := a.e - o.e) (by omega)
      rw [add_sub_cancel] at hy hy1
      refine ⟨0, y, ?_, ?_, le_refl 0, hy0, ?_, fun h => by omega⟩
      · rw [hleft, he, add_zero]
      · rw [hright, he, hy]
      · rwa [zero_add, he]
    · have hright : alignedRight a o = o.m := if_neg fun h => hgt h.1
      refine ⟨0, 0, ?_, ?_, le_refl 0, le_refl 0, ?_, fun _ => ⟨rfl, rfl⟩⟩
      · rw [hleft, he, add_zero]
      · rw [hright, he, add_zero]
        by_cases ho : o.m = 0
        · rw [ho]
          simp
        · rw [show o.e = a.e by omega]
      · rw [add_zero]
        exact lastBit_pos _ _

/-- What the sum or difference of two mantissas can be. -/
def SumFits (w : Nat) (sum : Int) : Prop := -2 ^ w ≤ sum ∧ sum < 2 ^ w

theorem SumFits.half (hw : 2 ≤ w) {sum : Int} (h : SumFits w sum) : Fits w (sum / 2) := by
  obtain ⟨hlower, hupper⟩ := h
  have htwo : (2 : Int) ^ w = 2 * 2 ^ (w - 1) := by
    rw [← pow_succ', show w - 1 + 1 = w by omega]
  constructor <;> omega

theorem sumFits_add (hw : 2 ≤ w) {x y : Int} (hx : Fits w x) (hy : Fits w y) : SumFits w (x + y) := by
  obtain ⟨hx0, hx1⟩ := hx
  obtain ⟨hy0, hy1⟩ := hy
  have htwo : (2 : Int) ^ w = 2 * 2 ^ (w - 1) := by
    rw [← pow_succ', show w - 1 + 1 = w by omega]
  constructor <;> omega

theorem sumFits_sub (hw : 2 ≤ w) {x y : Int} (hx : Fits w x) (hy : Fits w y) : SumFits w (x - y) := by
  obtain ⟨hx0, hx1⟩ := hx
  obtain ⟨hy0, hy1⟩ := hy
  have htwo : (2 : Int) ^ w = 2 * 2 ^ (w - 1) := by
    rw [← pow_succ', show w - 1 + 1 = w by omega]
  constructor <;> omega

theorem sumResult_proper (hw : 2 ≤ w) {sum e : Int} (h : SumFits w sum) (he : e ≤ 127) :
    (sumResult w sum e).Proper w := by
  unfold sumResult
  split
  · split
    · exact floatOverflow_proper hw _
    · next hle => exact normalResult_proper hw (h.half hw) (not_lt.1 hle)
  · next hfits => exact normalResult_proper hw (not_outOfRange_iff.1 hfits) he

/-- Only a sum that overflows loses a bit, worth one last bit of the operands. -/
theorem sumResult_value (hw : 2 ≤ w) {sum e : Int} (h : SumFits w sum) (ho : (sumResult w sum e).overflow = false)
    (hu : (sumResult w sum e).underflow = false) :
    ∃ z : ℚ, sum * lastBit w e = (sumResult w sum e).value.value w + z ∧ 0 ≤ z ∧ z ≤ lastBit w e ∧
      (Fits w sum → z = 0) := by
  have hlast := lastBit_pos w e
  by_cases hfits : Fits w sum
  · rw [sumResult, if_neg (not_outOfRange_iff.2 hfits)] at hu ⊢
    refine ⟨0, ?_, le_refl 0, le_of_lt hlast, fun _ => rfl⟩
    rw [normalResult_value hw hfits hu, add_zero]
  · have hout : outOfRange w sum = true := by
      by_contra hin
      exact hfits (not_outOfRange_iff.1 hin)
    rw [sumResult, if_pos hout] at ho hu ⊢
    by_cases htop : 127 < e + 1
    · rw [if_pos htop] at ho
      exact absurd ho (by simp [floatOverflow])
    · rw [if_neg htop] at hu ⊢
      have hnext : lastBit w (e + 1) = 2 * lastBit w e := by simpa using lastBit_add_natCast w e 1
      have hlower : ((2 * (sum / 2) : Int) : ℚ) ≤ sum := Int.cast_le.2 (by omega)
      have hupper : (sum : ℚ) ≤ ((2 * (sum / 2) + 1 : Int) : ℚ) := Int.cast_le.2 (by omega)
      push_cast at hlower hupper
      refine ⟨sum * lastBit w e - (sum / 2 : Int) * (2 * lastBit w e), ?_, ?_, ?_, fun h => absurd h hfits⟩
      · rw [normalResult_value hw (h.half hw) hu, hnext]
        ring
      · nlinarith
      · nlinarith

theorem lastBit_mono {e e' : Int} (h : e ≤ e') : lastBit w e ≤ lastBit w e' :=
  div_le_div_of_nonneg_right (zpow_le_zpow_right₀ (by norm_num) h) (by positivity)

/-- A sum, to within two last bits of the larger exponent. -/
theorem fadd_near (hw : 2 ≤ w) (ha : a.inRange w) (ho : o.inRange w) (hov : (fadd w a o).overflow = false)
    (hun : (fadd w a o).underflow = false) :
    |(fadd w a o).value.value w - (a.value w + o.value w)| < 2 * lastBit w (max a.e o.e) ∧
      (a.e = o.e → Fits w (a.m + o.m) → (fadd w a o).value.value w = a.value w + o.value w) := by
  obtain ⟨x, y, hx, hy, hx0, hy0, hxy, hsame⟩ := aligned_values w a o
  have hmono := lastBit_mono (w := w) (alignedExponent_le a o)
  rw [fadd, faddsub_eq] at hov hun ⊢
  obtain ⟨z, hz, hz0, hz1, hfits⟩ :=
    sumResult_value hw (sumFits_add hw (alignedLeft_fits ha.fits) (alignedRight_fits ho.fits)) hov hun
  push_cast at hz
  constructor
  · rw [abs_lt]
    constructor <;> linarith
  · intro he hsum
    obtain ⟨hleft, hright⟩ := aligned_of_same_exponent he
    have hz' := hfits (by rwa [hleft, hright])
    obtain ⟨hx', hy'⟩ := hsame he
    linarith

theorem fsub_near (hw : 2 ≤ w) (ha : a.inRange w) (ho : o.inRange w) (hov : (fsub w a o).overflow = false)
    (hun : (fsub w a o).underflow = false) :
    |(fsub w a o).value.value w - (a.value w - o.value w)| < 2 * lastBit w (max a.e o.e) ∧
      (a.e = o.e → Fits w (a.m - o.m) → (fsub w a o).value.value w = a.value w - o.value w) := by
  obtain ⟨x, y, hx, hy, hx0, hy0, hxy, hsame⟩ := aligned_values w a o
  have hmono := lastBit_mono (w := w) (alignedExponent_le a o)
  rw [fsub, faddsub_eq] at hov hun ⊢
  obtain ⟨z, hz, hz0, hz1, hfits⟩ :=
    sumResult_value hw (sumFits_sub hw (alignedLeft_fits ha.fits) (alignedRight_fits ho.fits)) hov hun
  push_cast at hz
  constructor
  · rw [abs_lt]
    constructor <;> linarith
  · intro he hsum
    obtain ⟨hleft, hright⟩ := aligned_of_same_exponent he
    have hz' := hfits (by rwa [hleft, hright])
    obtain ⟨hx', hy'⟩ := hsame he
    linarith

/-! ### Products (48_float.md R676) -/

theorem product_fits (hw : 2 ≤ w) {x y : Int} (hx : Fits w x) (hy : Fits w y) : Fits (2 * w) (x * y) := by
  have hle : |x * y| ≤ 2 ^ (w - 1) * 2 ^ (w - 1) := by
    rw [abs_mul]
    exact mul_le_mul (abs_le.2 ⟨hx.1, le_of_lt hx.2⟩) (abs_le.2 ⟨hy.1, le_of_lt hy.2⟩) (abs_nonneg y) (by positivity)
  have hpow : (2 : Int) ^ (2 * w - 1) = 2 * (2 ^ (w - 1) * 2 ^ (w - 1)) := by
    rw [← pow_add, ← pow_succ']
    congr 1
    omega
  have hpos : (0 : Int) < 2 ^ (w - 1) * 2 ^ (w - 1) := by positivity
  obtain ⟨hlower, hupper⟩ := abs_le.1 hle
  constructor <;> rw [hpow] <;> linarith

/-- The upper half of a double mantissa with no bit to spare has none either. -/
theorem cut_fits (hw : 2 ≤ w) {m : Int} (hm : Fits (2 * w) m) (hs : shiftable (2 * w) m = false) :
    Fits w (m / 2 ^ w) ∧ shiftable w (m / 2 ^ w) = false := by
  obtain ⟨hlower, hupper⟩ := hm
  have hd : (0 : Int) < 2 ^ w := by positivity
  have hfull : (2 : Int) ^ (2 * w - 1) = 2 ^ (w - 1) * 2 ^ w := by
    rw [← pow_add]
    congr 1
    omega
  have hhalf : (2 : Int) ^ (2 * w - 2) = 2 ^ (w - 2) * 2 ^ w := by
    rw [← pow_add]
    congr 1
    omega
  rw [hfull] at hlower hupper
  refine ⟨⟨(Int.le_ediv_iff_mul_le hd).2 (by linarith), (Int.ediv_lt_iff_lt_mul hd).2 hupper⟩, ?_⟩
  rw [← Bool.not_eq_true, shiftable_iff] at hs ⊢
  rintro ⟨hl, hu⟩
  refine hs ⟨?_, ?_⟩
  · have h := (Int.le_ediv_iff_mul_le hd).1 hl
    rw [hhalf]
    linarith
  · have h := (Int.ediv_lt_iff_lt_mul hd).1 hu
    rwa [hhalf]

/-- The normalized product on twice the bits. -/
def productUnpacked (w : Nat) (a o : Unpacked) : Unpacked :=
  normalizeLoop (2 * w) (2 * w) (a.m * o.m) (a.e + o.e + 1)

theorem fmul_eq (w : Nat) (a o : Unpacked) :
    fmul w a o =
      if a.m = 0 ∨ o.m = 0 then .plain ⟨0, 0⟩
      else if 127 < (productUnpacked w a o).e then floatOverflow w (decide (a.m * o.m < 0))
      else if (productUnpacked w a o).e < -128 then floatUnderflow
      else .plain ⟨(productUnpacked w a o).m / 2 ^ w, (productUnpacked w a o).e⟩ := rfl

/-- The normalized product is the exact one, on twice the bits, and has no bit to spare. -/
theorem productUnpacked_spec (hw : 2 ≤ w) (ha : Fits w a.m) (ho : Fits w o.m) (h0 : ¬(a.m = 0 ∨ o.m = 0)) :
    Fits (2 * w) (productUnpacked w a o).m ∧ shiftable (2 * w) (productUnpacked w a o).m = false ∧
      (productUnpacked w a o).m * lastBit w (productUnpacked w a o).e = 2 ^ w * (a.value w * o.value w) := by
  have hne : a.m * o.m ≠ 0 := mul_ne_zero (fun h => h0 (Or.inl h)) fun h => h0 (Or.inr h)
  obtain ⟨j, _, heq, hfits, hs⟩ :=
    normalizeLoop_normal (w := 2 * w) (e := a.e + o.e + 1) (by omega) (product_fits hw ha ho) hne
  rw [productUnpacked, heq]
  refine ⟨hfits, hs, ?_⟩
  have hpow : (2 : ℚ) ^ w = 2 ^ (w - 1) * 2 := by
    rw [← pow_succ, show w - 1 + 1 = w by omega]
  have hlast : lastBit w (a.e + o.e + 1) = 2 ^ w * (lastBit w a.e * lastBit w o.e) := by
    rw [lastBit, lastBit, lastBit, zpow_add₀ two_ne_zero, zpow_add₀ two_ne_zero, hpow, zpow_one]
    field_simp
  have hshift := lastBit_sub_natCast w (a.e + o.e + 1) j
  rw [value_eq_mul_lastBit, value_eq_mul_lastBit]
  push_cast
  calc (a.m * o.m * 2 ^ j : ℚ) * lastBit w (a.e + o.e + 1 - j)
      = a.m * o.m * (2 ^ j * lastBit w (a.e + o.e + 1 - j)) := by ring
    _ = 2 ^ w * (a.m * lastBit w a.e * (o.m * lastBit w o.e)) := by
      rw [hshift, hlast]
      ring

theorem fmul_proper (hw : 2 ≤ w) (ha : Fits w a.m) (ho : Fits w o.m) : (fmul w a o).Proper w := by
  rw [fmul_eq]
  split
  · exact plain_proper (Or.inl rfl) (inRange_of_fits fits_zero (by decide) (by decide))
  · next h0 =>
    obtain ⟨hfits, hs, _⟩ := productUnpacked_spec hw ha ho h0
    obtain ⟨hcut, hcuts⟩ := cut_fits hw hfits hs
    split
    · exact floatOverflow_proper hw _
    · split
      · exact floatUnderflow_proper
      · next hupper hlower =>
        exact plain_proper (normalOrZero_of_not_shiftable hcuts)
          (inRange_of_fits hcut (not_lt.1 hlower) (not_lt.1 hupper))

/-- `r` is `x` with the bits after the last mantissa bit dropped. -/
def FloatResult.Below (w : Nat) (r : FloatResult) (x : ℚ) : Prop :=
  r.overflow = false → r.underflow = false →
    r.value.value w ≤ x ∧ x < r.value.value w + (2 : ℚ) ^ r.value.e / 2 ^ (w - 1)

theorem floatOverflow_below (negative : Bool) (x : ℚ) : (floatOverflow w negative).Below w x :=
  fun h => absurd h (by simp [floatOverflow])

theorem floatUnderflow_below (x : ℚ) : floatUnderflow.Below w x := fun _ h => absurd h (by simp [floatUnderflow])

theorem below_of_eq {r : FloatResult} {x : ℚ} (h : r.underflow = false → r.value.value w = x) : r.Below w x := by
  intro _ hu
  rw [h hu]
  exact ⟨le_refl x, lt_add_of_pos_right x (lastBit_pos w r.value.e)⟩

theorem fmul_below (hw : 2 ≤ w) (ha : Fits w a.m) (ho : Fits w o.m) : (fmul w a o).Below w (a.value w * o.value w) := by
  rw [fmul_eq]
  split
  · next h0 =>
    refine below_of_eq fun _ => ?_
    rw [FloatResult.plain, value_eq_mul_lastBit, value_eq_mul_lastBit w a, value_eq_mul_lastBit w o]
    rcases h0 with h0 | h0 <;> rw [h0] <;> simp
  · next h0 =>
    obtain ⟨_, _, hvalue⟩ := productUnpacked_spec hw ha ho h0
    split
    · exact floatOverflow_below _ _
    · split
      · exact floatUnderflow_below _
      · intro _ _
        have hd : (0 : Int) < 2 ^ w := by positivity
        have hdq : (0 : ℚ) < 2 ^ w := by positivity
        have hlast := lastBit_pos w (productUnpacked w a o).e
        have hlower : ((2 ^ w * ((productUnpacked w a o).m / 2 ^ w) : Int) : ℚ) ≤ (productUnpacked w a o).m :=
          Int.cast_le.2 (Int.mul_ediv_self_le (ne_of_gt hd))
        have hupper : ((productUnpacked w a o).m : ℚ) <
          ((2 ^ w * ((productUnpacked w a o).m / 2 ^ w) + 2 ^ w : Int) : ℚ) :=
          Int.cast_lt.2 (Int.lt_mul_ediv_self_add hd)
        push_cast at hlower hupper
        rw [FloatResult.plain, value_eq_mul_lastBit]
        refine ⟨le_of_mul_le_mul_left ?_ hdq, lt_of_mul_lt_mul_left ?_ (le_of_lt hdq)⟩
        · rw [← hvalue]
          push_cast
          nlinarith
        · rw [← hvalue]
          push_cast
          have hstep := mul_lt_mul_of_pos_right hupper hlast
          unfold lastBit at hstep ⊢
          linarith

/-! ### Quotients (48_float.md R685) -/

/-- The quotient of the mantissas as a fraction with a positive denominator. -/
def quotientNum (a o : Unpacked) : Int := if o.m < 0 then -a.m else a.m

@[inherit_doc quotientNum]
def quotientDen (o : Unpacked) : Int := if o.m < 0 then -o.m else o.m

/-- The fraction of the mantissas is not one of a mantissa: it takes one bit more. -/
def quotientBig (a o : Unpacked) : Bool :=
  decide (quotientDen o ≤ quotientNum a o ∨ quotientNum a o < -quotientDen o)

/-- The denominator that makes the quotient a mantissa, and the exponent that goes with it. -/
def scaledDen (a o : Unpacked) : Int := if quotientBig a o then 2 * quotientDen o else quotientDen o

@[inherit_doc scaledDen]
def startExponent (a o : Unpacked) : Int := if a.m = 0 then 0 else a.e - o.e

@[inherit_doc scaledDen]
def quotientExponent (a o : Unpacked) : Int :=
  if quotientBig a o then startExponent a o + 1 else startExponent a o

theorem fdiv_eq (w : Nat) (a o : Unpacked) :
    fdiv w a o =
      if 127 < startExponent a o ∨ o.m = 0 then floatOverflow w (decide (a.m < 0) != decide (o.m < 0))
      else if startExponent a o < -128 then floatUnderflow
      else if 127 < quotientExponent a o then floatOverflow w (decide (quotientNum a o < 0))
      else normalResult w (quotientNum a o * 2 ^ (w - 1) / scaledDen a o) (quotientExponent a o) := rfl

/-- The scaled quotient of two mantissas without a bit to spare lies in [-1, 1), and not strictly between minus one half
and one half. -/
theorem scaledDen_spec (hw : 2 ≤ w) (ha : Fits w a.m) (ho : Fits w o.m) (hna : a.normalOrZero w)
    (hno : o.normalOrZero w) (h0 : o.m ≠ 0) :
    0 < scaledDen a o ∧ -scaledDen a o ≤ quotientNum a o ∧ quotientNum a o < scaledDen a o ∧
      (a.m ≠ 0 → scaledDen a o ≤ 2 * quotientNum a o ∨ 2 * quotientNum a o ≤ -scaledDen a o) := by
  have htwo := two_pow_pred hw
  have hpos : (0 : Int) < 2 ^ (w - 2) := by positivity
  unfold Fits at ha ho
  unfold Unpacked.normalOrZero at hna hno
  rw [htwo] at ha ho
  generalize (2 : Int) ^ (w - 2) = half at *
  unfold scaledDen quotientBig quotientNum quotientDen
  simp only [decide_eq_true_eq]
  split_ifs <;> omega

/-- The mantissa of a quotient fits, and has no bit to spare unless it is exact. -/
theorem quotient_spec (hw : 2 ≤ w) {num den : Int} (hden : 0 < den) (hlower : -den ≤ num) (hupper : num < den)
    (hhalf : den ≤ 2 * num ∨ 2 * num ≤ -den) :
    Fits w (num * 2 ^ (w - 1) / den) ∧
      (shiftable w (num * 2 ^ (w - 1) / den) = false ∨
        num * 2 ^ (w - 1) / den * den = num * 2 ^ (w - 1)) := by
  have htwo := two_pow_pred hw
  have hpos : (0 : Int) < 2 ^ (w - 2) := by positivity
  unfold Fits
  rw [htwo]
  refine ⟨⟨(Int.le_ediv_iff_mul_le hden).2 (by nlinarith), (Int.ediv_lt_iff_lt_mul hden).2 (by nlinarith)⟩, ?_⟩
  rw [← Bool.not_eq_true, shiftable_iff]
  rcases hhalf with hge | hle
  · have hq : 2 ^ (w - 2) ≤ num * (2 * 2 ^ (w - 2)) / den := (Int.le_ediv_iff_mul_le hden).2 (by nlinarith)
    exact Or.inl fun h => absurd h.2 (not_lt.2 hq)
  rcases eq_or_lt_of_le hle with heq | hlt
  · have hexact : num * (2 * 2 ^ (w - 2)) = den * -2 ^ (w - 2) := by
      calc num * (2 * 2 ^ (w - 2)) = 2 * num * 2 ^ (w - 2) := by ring
        _ = den * -2 ^ (w - 2) := by rw [heq]; ring
    right
    rw [hexact, Int.mul_ediv_cancel_left _ (ne_of_gt hden)]
    ring
  · have hq : num * (2 * 2 ^ (w - 2)) / den < -2 ^ (w - 2) := (Int.ediv_lt_iff_lt_mul hden).2 (by nlinarith)
    exact Or.inl fun h => absurd h.1 (not_le.2 hq)

theorem fdiv_proper (hw : 2 ≤ w) (ha : Fits w a.m) (ho : Fits w o.m) (hna : a.normalOrZero w) (hno : o.normalOrZero w) :
    (fdiv w a o).Proper w := by
  rw [fdiv_eq]
  split
  · exact floatOverflow_proper hw _
  next hstart =>
  split
  · exact floatUnderflow_proper
  split
  · exact floatOverflow_proper hw _
  next hupper =>
  refine normalResult_proper hw ?_ (not_lt.1 hupper)
  obtain ⟨hden, hl, hu, hhalf⟩ := scaledDen_spec hw ha ho hna hno fun h => hstart (Or.inr h)
  by_cases hm : a.m = 0
  · have hnum : quotientNum a o = 0 := by
      unfold quotientNum
      rw [hm, neg_zero, ite_self]
    rw [hnum, zero_mul, Int.zero_ediv]
    exact fits_zero
  · exact (quotient_spec hw hden hl hu (hhalf hm)).1

/-- The exact quotient, as the scaled fraction at the exponent of the result. -/
theorem value_div_value (ha : a.m ≠ 0) (ho : o.m ≠ 0) :
    a.value w / o.value w =
      (quotientNum a o * 2 ^ (w - 1) : ℚ) / scaledDen a o * lastBit w (quotientExponent a o) := by
  have hom : (o.m : ℚ) ≠ 0 := Int.cast_ne_zero.2 ho
  have hstart : startExponent a o = a.e - o.e := if_neg ha
  have hmant : (quotientNum a o : ℚ) / quotientDen o = a.m / o.m := by
    unfold quotientNum quotientDen
    split
    · push_cast
      exact neg_div_neg_eq _ _
    · rfl
  have hvalue : a.value w / o.value w = (a.m : ℚ) / o.m * (2 : ℚ) ^ (a.e - o.e) := by
    rw [Unpacked.value, Unpacked.value, zpow_sub₀ two_ne_zero]
    have hpow : (2 : ℚ) ^ o.e ≠ 0 := zpow_ne_zero _ two_ne_zero
    field_simp
  rw [hvalue, ← hmant, lastBit, scaledDen, quotientExponent, hstart]
  split
  · rw [zpow_add₀ two_ne_zero, zpow_one]
    push_cast
    field_simp
  · field_simp

theorem fdiv_below (hw : 2 ≤ w) (ha : Fits w a.m) (ho : Fits w o.m) (hna : a.normalOrZero w) (hno : o.normalOrZero w)
    (h0 : o.m ≠ 0) : (fdiv w a o).Below w (a.value w / o.value w) := by
  obtain ⟨hden, hl, hu, hhalf⟩ := scaledDen_spec hw ha ho hna hno h0
  rw [fdiv_eq]
  split
  · exact floatOverflow_below _ _
  split
  · exact floatUnderflow_below _
  split
  · exact floatOverflow_below _ _
  by_cases hm : a.m = 0
  · have hnum : quotientNum a o = 0 := by
      unfold quotientNum
      rw [hm, neg_zero, ite_self]
    refine below_of_eq fun hun => ?_
    rw [hnum, zero_mul, Int.zero_ediv] at hun ⊢
    rw [normalResult_value hw fits_zero hun, value_eq_mul_lastBit w a, hm]
    simp
  have hexact := value_div_value (w := w) hm h0
  have hdq : (0 : ℚ) < scaledDen a o := Int.cast_pos.2 hden
  obtain ⟨hfits, hend⟩ := quotient_spec hw hden hl hu (hhalf hm)
  generalize hq : quotientNum a o * 2 ^ (w - 1) / scaledDen a o = q at *
  rcases hend with hs | hdvd
  · have hq0 : q ≠ 0 := by
      rintro rfl
      exact absurd hs (by rw [Bool.not_eq_false, shiftable_iff]; constructor <;> simp)
    intro _ hun
    have hnorm := fnorm_of_not_shiftable (e := quotientExponent a o) hq0 hs
    have hres : normalResult w q (quotientExponent a o) = .plain ⟨q, quotientExponent a o⟩ := by
      unfold normalResult at hun ⊢
      split at hun
      · exact absurd hun (by simp [floatUnderflow])
      · next hlt => rw [if_neg hlt, hnorm]
    have hlower : ((scaledDen a o * q : Int) : ℚ) ≤ ((quotientNum a o * 2 ^ (w - 1) : Int) : ℚ) :=
      Int.cast_le.2 (hq ▸ Int.mul_ediv_self_le (ne_of_gt hden))
    have hupper : ((quotientNum a o * 2 ^ (w - 1) : Int) : ℚ) < ((scaledDen a o * q + scaledDen a o : Int) : ℚ) :=
      Int.cast_lt.2 (hq ▸ Int.lt_mul_ediv_self_add hden)
    push_cast at hlower hupper
    have hlast := lastBit_pos w (quotientExponent a o)
    rw [hres, FloatResult.plain, value_eq_mul_lastBit, hexact]
    constructor
    · refine mul_le_mul_of_nonneg_right ?_ (le_of_lt hlast)
      rw [le_div_iff₀ hdq]
      linarith
    · have hstep : (quotientNum a o * 2 ^ (w - 1) : ℚ) / scaledDen a o < q + 1 := by
        rw [div_lt_iff₀ hdq]
        linarith
      have hmul := mul_lt_mul_of_pos_right hstep hlast
      unfold lastBit at hmul ⊢
      linarith
  · refine below_of_eq fun hun => ?_
    have hcast : (q * scaledDen a o : ℚ) = quotientNum a o * 2 ^ (w - 1) := by exact_mod_cast hdvd
    rw [normalResult_value hw hfits hun, hexact, ← hcast]
    field_simp

end

/-- Every sum and difference is a proper result. -/
theorem faddsub_proper {w : Nat} (hw : 2 ≤ w) {a o : Unpacked} (ha : a.inRange w) (ho : o.inRange w)
    {op : Int → Int → Int} (hop : ∀ {x y}, Fits w x → Fits w y → SumFits w (op x y)) :
    (faddsub w op a o).Proper w := by
  obtain ⟨_, _, _, hae⟩ := id ha
  obtain ⟨_, _, _, hoe⟩ := id ho
  rw [faddsub_eq]
  exact sumResult_proper hw (hop (alignedLeft_fits ha.fits) (alignedRight_fits ho.fits))
    (le_trans (alignedExponent_le a o) (max_le hae hoe))

end Sys2Proof.Machine

/-! ### The statements -/

namespace Sys2Proof.Certificates

open Sys2Proof.Machine

/-- Settles O28: each algorithm ends in an overflow, an underflow or a normalized number. -/
theorem floatResultsAreNumbers : Obligations.FloatResultsAreNumbers := by
  intro w a o hw hna hno ha ho f hf
  have hw2 : 2 ≤ w := by omega
  simp only [List.mem_cons, List.not_mem_nil, or_false] at hf
  rcases hf with rfl | rfl | rfl | rfl
  · exact faddsub_proper hw2 ha ho (sumFits_add hw2)
  · exact faddsub_proper hw2 ha ho (sumFits_sub hw2)
  · exact fmul_proper hw2 ha.fits ho.fits
  · exact fdiv_proper hw2 ha.fits ho.fits hna hno

/-- Settles O29: the bits dropped by the alignment and by an overflow, and by the cut of a product or quotient. -/
theorem floatRounding : Obligations.FloatRounding := by
  constructor
  case left =>
    intro w a o hw ha ho unit
    have hw2 : 2 ≤ w := by omega
    refine ⟨fun hov hun => ?add, fun hov hun => ?sub⟩
    case add =>
      obtain ⟨hnear, hexact⟩ := fadd_near hw2 ha ho hov hun
      exact ⟨hnear, fun he hlower hupper => hexact he ⟨hlower, hupper⟩⟩
    case sub =>
      obtain ⟨hnear, hexact⟩ := fsub_near hw2 ha ho hov hun
      exact ⟨hnear, fun he hlower hupper => hexact he ⟨hlower, hupper⟩⟩
  case right =>
    intro w a o hw ha ho hna hno below
    have hw2 : 2 ≤ w := by omega
    exact ⟨fmul_below hw2 ha.fits ho.fits, fdiv_below hw2 ha.fits ho.fits hna hno⟩

end Sys2Proof.Certificates
end

section
/-! Integer portions and comparisons as exact numbers, and the statements Conversions, FloatCompares. -/

namespace Sys2Proof.Machine

/-! ### Unpacked numbers (48_float.md R650) -/

theorem unpack24_inRange (v : Long) : (unpack24 v).inRange 24 :=
  ⟨BitVec.le_toInt _, BitVec.toInt_lt, BitVec.le_toInt (w := 8) _, Int.le_of_lt_add_one (BitVec.toInt_lt (w := 8))⟩

theorem unpack40_inRange (v : Ext) : (unpack40 v).inRange 40 :=
  ⟨BitVec.le_toInt _, BitVec.toInt_lt, BitVec.le_toInt (w := 8) _, Int.le_of_lt_add_one (BitVec.toInt_lt (w := 8))⟩

/-! ### Integer portions (48_float.md R694, R696) -/

theorem integerPortion_div (m : Int) (d : Nat) : integerPortion ((m : ℚ) / d) = m.tdiv d := by
  unfold integerPortion
  split
  · next h =>
    rw [Rat.floor_intCast_div_natCast]
    rcases Nat.eq_zero_or_pos d with rfl | hd
    · simp
    · have hm : 0 ≤ m := by
        have hdq : (0 : ℚ) < d := Nat.cast_pos.2 hd
        by_contra hneg
        exact absurd h (not_le.2 (div_neg_of_neg_of_pos (Int.cast_lt_zero.2 (not_le.1 hneg)) hdq))
      exact (Int.tdiv_eq_ediv_of_nonneg hm).symm
  · next h =>
    have hm : 0 ≤ -m := by
      by_contra hneg
      exact h (div_nonneg (Int.cast_nonneg (by omega)) (Nat.cast_nonneg d))
    rw [Rat.ceil_intCast_div_natCast, ← Int.tdiv_eq_ediv_of_nonneg hm, Int.neg_tdiv, neg_neg]

/-- The integer portion, by shifting out the bits after the point. -/
theorem truncate_eq_integerPortion {w : Nat} (u : Unpacked) (he : u.e ≤ w - 1) (hw : 1 ≤ w) :
    truncate w u = integerPortion (u.value w) := by
  obtain ⟨k, hk⟩ := Int.eq_ofNat_of_zero_le (show 0 ≤ (w : Int) - 1 - u.e by omega)
  have hvalue : u.value w = (u.m : ℚ) / (2 ^ k : Nat) := by
    have hpow : (2 : ℚ) ^ (w - 1) = 2 ^ u.e * 2 ^ k := by
      rw [← zpow_natCast, ← zpow_natCast, ← zpow_add₀ two_ne_zero]
      congr 1
      omega
    have hne : (2 : ℚ) ^ u.e ≠ 0 := zpow_ne_zero _ two_ne_zero
    rw [Unpacked.value, hpow]
    push_cast
    field_simp
  rw [hvalue, integerPortion_div, truncate, hk]
  push_cast
  rfl

theorem integerPortion_fits {x : ℚ} {k : Nat} (hlower : -2 ^ k ≤ x) (hupper : x < 2 ^ k) :
    -2 ^ k ≤ integerPortion x ∧ integerPortion x < 2 ^ k := by
  have hpos : (0 : Int) < 2 ^ k := by positivity
  unfold integerPortion
  split
  · next h =>
    have hfloor : 0 ≤ ⌊x⌋ := Int.floor_nonneg.2 h
    exact ⟨by omega, Int.floor_lt.2 (by exact_mod_cast hupper)⟩
  · next h =>
    have hceil : ⌈x⌉ ≤ 0 := Int.ceil_le.2 (by exact_mod_cast le_of_lt (not_le.1 h))
    have hle : ((-2 ^ k : Int) : ℚ) ≤ ⌈x⌉ := by
      push_cast
      exact le_trans hlower (Int.le_ceil x)
    exact ⟨Int.cast_le.1 hle, by omega⟩

/-- A number whose exponent does not exceed `k` is below `2 ^ k` in magnitude. -/
theorem value_bounds {w : Nat} {u : Unpacked} (h : Fits w u.m) {k : Nat} (he : u.e ≤ k) :
    -2 ^ k ≤ u.value w ∧ u.value w < 2 ^ k := by
  have hmono : lastBit w u.e ≤ lastBit w k := lastBit_mono he
  have hk : 2 ^ (w - 1) * lastBit w k = 2 ^ k := by
    rw [lastBit, zpow_natCast]
    field_simp
  have hpos := lastBit_pos w u.e
  have hM : (0 : ℚ) < 2 ^ (w - 1) := by positivity
  have hlower : (-2 ^ (w - 1) : ℚ) ≤ u.m := by exact_mod_cast h.1
  have hupper : (u.m : ℚ) < 2 ^ (w - 1) := by exact_mod_cast h.2
  rw [value_eq_mul_lastBit, ← hk]
  constructor <;> nlinarith

/-- An integer portion that fits is written whole. -/
theorem toInt_ofInt_truncate {w n : Nat} (hw : n + 1 ≤ w) {u : Unpacked} (hu : u.inRange w) (he : u.e ≤ n) :
    truncate w u = integerPortion (u.value w) ∧
      (BitVec.ofInt (n + 1) (integerPortion (u.value w))).toInt = integerPortion (u.value w) := by
  obtain ⟨hlower, hupper⟩ := value_bounds hu.fits he
  obtain ⟨hl, hu'⟩ := integerPortion_fits hlower hupper
  exact ⟨truncate_eq_integerPortion u (by omega) (by omega), BitVec.toInt_ofInt_eq_self (by omega) hl hu'⟩

/-! ### FIX, EFIX -/

section
variable (s : State) (ra rb : Reg)

theorem execFix_eq_after (h : (unpack24 (s.pair rb)).normalOrZero 24) :
    execFix ra rb s =
      if 15 < (unpack24 (s.pair rb)).e then
        .next (s.after s.reg (signCs false (s.reg ra).toInt) 0x0800#16 (s.ic + 1))
      else
        .next (s.after (set1 s.reg ra (BitVec.ofInt 16 (integerPortion ((unpack24 (s.pair rb)).value 24))))
          (signCs false (integerPortion ((unpack24 (s.pair rb)).value 24))) 0 (s.ic + 1)) := by
  refine (if_pos ((usable_iff 24 _).2 h)).trans ?_
  split
  · rw [State.finishCs_eq_after, pzn_eq_signCs]
    exact congrArg Host.Outcome.next (State.requestIf_after_zero s true intFixedOverflow _ _ _)
  · next he =>
    obtain ⟨htruncate, hfits⟩ :=
      toInt_ofInt_truncate (n := 15) (by decide) (unpack24_inRange (s.pair rb)) (not_lt.1 he)
    rw [htruncate, State.finish_eq_after, pzn_eq_signCs, hfits]

theorem execEfix_eq_after (h : (unpack40 (s.triple rb)).normalOrZero 40) :
    execEfix ra rb s =
      if 31 < (unpack40 (s.triple rb)).e then
        .next (s.after s.reg (signCs false (s.pair ra).toInt) 0x0800#16 (s.ic + 1))
      else
        .next (s.after (setLong s.reg ra (BitVec.ofInt 32 (integerPortion ((unpack40 (s.triple rb)).value 40))))
          (signCs false (integerPortion ((unpack40 (s.triple rb)).value 40))) 0 (s.ic + 1)) := by
  refine (if_pos ((usable_iff 40 _).2 h)).trans ?_
  split
  · rw [State.finishCs_eq_after, pzn_eq_signCs]
    exact congrArg Host.Outcome.next (State.requestIf_after_zero s true intFixedOverflow _ _ _)
  · next he =>
    obtain ⟨htruncate, hfits⟩ :=
      toInt_ofInt_truncate (n := 31) (by decide) (unpack40_inRange (s.triple rb)) (not_lt.1 he)
    rw [htruncate, State.finish2_eq_after, set2_hi_lo, pzn_eq_signCs, hfits]

theorem requestBits_fixed_within (b : Bool) : requestBits b intFixedOverflow &&& ~~~0x0800#16 = 0#16 := by
  cases b <;> decide

theorem execFix_any (h : ¬(unpack24 (s.pair rb)).normalOrZero 24) :
    ∃ v m : Word, m &&& ~~~0x0800#16 = 0#16 ∧
      execFix ra rb s = .next ((s.after (set1 s.reg ra v) (signCs false v.toInt) m (s.ic + 1)).spend 2) := by
  refine ⟨s.free 0, _, requestBits_fixed_within (s.freeBit 1), (if_neg fun hu => h ((usable_iff 24 _).1 hu)).trans ?_⟩
  rw [State.finish_eq_after, State.requestIf_after_zero, State.requestIf_reg, State.requestIf_ic, pzn_eq_signCs]

theorem execEfix_any (h : ¬(unpack40 (s.triple rb)).normalOrZero 40) :
    ∃ (v : Long) (m : Word), m &&& ~~~0x0800#16 = 0#16 ∧
      execEfix ra rb s = .next ((s.after (setLong s.reg ra v) (signCs false v.toInt) m (s.ic + 1)).spend 3) := by
  refine ⟨Long.ofWords (s.free 0) (s.free 1), _, requestBits_fixed_within (s.freeBit 2),
    (if_neg fun hu => h ((usable_iff 40 _).1 hu)).trans ?_⟩
  rw [State.finish2_eq_after, set2_hi_lo, State.requestIf_after_zero, State.requestIf_reg, State.requestIf_ic,
    pzn_eq_signCs]

end

/-! ### FLT, EFLT (48_float.md R695, R697) -/

/-- An integer of `n + 1` bits as a normalized number: its exponent starts at `n`, and normalization takes at most as
many shifts as there are mantissa bits. -/
theorem fnorm_integer {w n : Nat} (hw : 2 ≤ w) (hn : n < w) (hw' : w ≤ 40) {i : Int} (hi : Fits (n + 1) i) :
    (fnorm w (i * 2 ^ (w - 1 - n)) n).value w = i ∧ (fnorm w (i * 2 ^ (w - 1 - n)) n).inRange w ∧
      (fnorm w (i * 2 ^ (w - 1 - n)) n).normalOrZero w ∧
      ((fnorm w (i * 2 ^ (w - 1 - n)) n).m = 0 → (fnorm w (i * 2 ^ (w - 1 - n)) n).e = 0) := by
  have hpow : (2 : Int) ^ (w - 1) = 2 ^ n * 2 ^ (w - 1 - n) := by
    rw [← pow_add]
    congr 1
    omega
  have hd : (0 : Int) < 2 ^ (w - 1 - n) := by positivity
  have hm : Fits w (i * 2 ^ (w - 1 - n)) := by
    obtain ⟨hlower, hupper⟩ := hi
    rw [Nat.add_sub_cancel] at hlower hupper
    constructor <;> rw [hpow] <;> nlinarith
  refine ⟨?_, ?_, fnorm_normalOrZero hw hm, ?_⟩
  · have hq : (2 : ℚ) ^ (w - 1) = 2 ^ n * 2 ^ (w - 1 - n) := by exact_mod_cast hpow
    rw [fnorm_value hw hm, lastBit, zpow_natCast, hq]
    push_cast
    field_simp
  · by_cases h0 : i * 2 ^ (w - 1 - n) = 0
    · rw [fnorm, if_pos h0]
      exact inRange_of_fits fits_zero (by decide) (by decide)
    · obtain ⟨hlower, hupper⟩ := fnorm_exponent (e := n) hw hm h0
      exact inRange_of_fits (fnorm_fits hw hm) (by omega) (by omega)
  · intro hzero
    by_cases h0 : i * 2 ^ (w - 1 - n) = 0
    · rw [fnorm, if_pos h0]
    · exact absurd hzero (fnorm_mantissa_ne_zero hw hm h0)

/-! ### Compares (48_float.md R700) -/

/-- Scaled by a power of two that makes both integers, two numbers compare as they do. -/
theorem fcompare_eq_compareRat {w : Nat} {a o : Unpacked} (ha : a.inRange w) (ho : o.inRange w) :
    fcompare a o = compareRat (a.value w) (o.value w) := by
  have scaled {u : Unpacked} (hu : u.inRange w) :
      ((u.m * 2 ^ (u.e + 128).toNat : Int) : ℚ) = u.value w * (2 ^ (w - 1) * 2 ^ 128) := by
    obtain ⟨_, _, hlower, _⟩ := hu
    obtain ⟨k, hk⟩ := Int.eq_ofNat_of_zero_le (show 0 ≤ u.e + 128 by omega)
    have hpow : (2 : ℚ) ^ k = 2 ^ u.e * 2 ^ 128 := by
      rw [← zpow_natCast, ← hk, zpow_add₀ two_ne_zero]
      rfl
    rw [Unpacked.value, hk, Int.toNat_natCast]
    push_cast
    rw [hpow]
    field_simp
  have hpos : (0 : ℚ) < 2 ^ (w - 1) * 2 ^ 128 := by positivity
  rw [fcompare, compareCs, compareRat]
  refine if_congr ?_ rfl (if_congr ?_ rfl rfl)
  · rw [← Int.cast_inj (α := ℚ), scaled ha, scaled ho]
    exact mul_left_inj' (ne_of_gt hpos)
  · rw [← Int.cast_lt (R := ℚ), scaled ha, scaled ho]
    exact mul_lt_mul_iff_left₀ hpos

theorem State.anyCompare_cases (s : State) :
    s.anyCompare = 0b0010#4 ∨ s.anyCompare = 0b0001#4 ∨ s.anyCompare = 0b0100#4 := by
  unfold State.anyCompare
  split
  · exact Or.inl rfl
  · split
    · exact Or.inr (Or.inl rfl)
    · exact Or.inr (Or.inr rfl)

section
variable (s : State) (k : Nat) (ra : Reg) (len : Word)

theorem State.floatCompare_turns {v : Long} (ha : (unpack24 (s.pair ra)).normalOrZero 24)
    (ho : (unpack24 v).normalOrZero 24) :
    (s.turns k).floatCompare ra v len =
      (s.turns k).after s.reg (compareRat ((unpack24 (s.pair ra)).value 24) ((unpack24 v).value 24)) 0
        (s.ic + len) := by
  rw [State.floatCompare, State.turns_pair, if_pos ((usable_both_iff 24 _ _).2 ⟨ha, ho⟩), State.finishCs_turns,
    fcompare_eq_compareRat (unpack24_inRange _) (unpack24_inRange _)]

theorem State.floatCompare_turns_any {v : Long}
    (h : ¬((unpack24 (s.pair ra)).normalOrZero 24 ∧ (unpack24 v).normalOrZero 24)) :
    (s.turns k).floatCompare ra v len =
      ((s.turns k).after s.reg (s.turns k).anyCompare 0 (s.ic + len)).spend 2 := by
  rw [State.floatCompare, State.turns_pair, if_neg fun hu => h ((usable_both_iff 24 _ _).1 hu), State.finishCs_turns]

theorem State.extendedCompare_turns {v : Ext} (ha : (unpack40 (s.triple ra)).normalOrZero 40)
    (ho : (unpack40 v).normalOrZero 40) :
    (s.turns k).extendedCompare ra v len =
      (s.turns k).after s.reg (compareRat ((unpack40 (s.triple ra)).value 40) ((unpack40 v).value 40)) 0
        (s.ic + len) := by
  rw [State.extendedCompare, State.turns_triple, if_pos ((usable_both_iff 40 _ _).2 ⟨ha, ho⟩), State.finishCs_turns,
    fcompare_eq_compareRat (unpack40_inRange _) (unpack40_inRange _)]

theorem State.extendedCompare_turns_any {v : Ext}
    (h : ¬((unpack40 (s.triple ra)).normalOrZero 40 ∧ (unpack40 v).normalOrZero 40)) :
    (s.turns k).extendedCompare ra v len =
      ((s.turns k).after s.reg (s.turns k).anyCompare 0 (s.ic + len)).spend 2 := by
  rw [State.extendedCompare, State.turns_triple, if_neg fun hu => h ((usable_both_iff 40 _ _).1 hu),
    State.finishCs_turns]

end

end Sys2Proof.Machine

/-! ### The statements -/

namespace Sys2Proof.Certificates

open Sys2Proof.Machine

/-- Settles O26: the integer portion by its exponent, and the normalized number of an integer. -/
theorem conversions : Obligations.Conversions := by
  intro s ra rb d x short long pair whole
  refine ⟨fun h => ⟨?fix, ?fixOverflow⟩, fun h => ⟨?efix, ?efixOverflow⟩, execFix_any s ra rb, execEfix_any s ra rb,
    ?flt, ?eflt⟩
  case fix => exact fun he => (execFix_eq_after s ra rb h).trans (if_neg (not_lt.2 he))
  case fixOverflow => exact fun he => (execFix_eq_after s ra rb h).trans (if_pos he)
  case efix => exact fun he => (execEfix_eq_after s ra rb h).trans (if_neg (not_lt.2 he))
  case efixOverflow => exact fun he => (execEfix_eq_after s ra rb h).trans (if_pos he)
  case flt =>
    obtain ⟨hvalue, hrange, hnormal, hzero⟩ := fnorm_integer (w := 24) (n := 15) (by decide) (by decide) (by decide)
      ⟨(s.reg rb).le_toInt, (s.reg rb).toInt_lt⟩
    exact ⟨fnorm 24 ((s.reg rb).toInt * 2 ^ 8) 15, hvalue, hrange, hnormal, hzero,
      congrArg Host.Outcome.next (s.storeFloat_eq_afterFloat ra _ 1)⟩
  case eflt =>
    obtain ⟨hvalue, hrange, hnormal, hzero⟩ := fnorm_integer (w := 40) (n := 31) (by decide) (by decide) (by decide)
      ⟨whole.le_toInt, whole.toInt_lt⟩
    exact ⟨fnorm 40 (whole.toInt * 2 ^ 8) 31, hvalue, hrange, hnormal, hzero,
      congrArg Host.Outcome.next (s.storeExtended_eq_afterExtended ra _ 1)⟩

/-- Settles O27: each addressing mode's operand, then the comparison of exact numbers. -/
theorem floatCompares : Obligations.FloatCompares := by
  intro s ra rb br rx addr w0 w1 w2 dspl short long completes
  have single (k : Nat) {i : Instr} {r : Reg} {v : Long} {len : Word}
      (hexec : exec i s = .next ((s.turns k).floatCompare r v len)) : completes k 24 i (short r) (unpack24 v) len := by
    refine ⟨fun ha ho => ?_, fun h => ⟨(s.turns k).anyCompare, State.anyCompare_cases _, ?_⟩⟩
    · rw [hexec, State.floatCompare_turns s k r len ha ho]
      rfl
    · rw [hexec, State.floatCompare_turns_any s k r len h]
  have extended (k : Nat) {i : Instr} {r : Reg} {v : Ext} {len : Word}
      (hexec : exec i s = .next ((s.turns k).extendedCompare r v len)) :
        completes k 40 i (long r) (unpack40 v) len := by
    refine ⟨fun ha ho => ?_, fun h => ⟨(s.turns k).anyCompare, State.anyCompare_cases _, ?_⟩⟩
    · rw [hexec, State.extendedCompare_turns s k r len ha ho]
      rfl
    · rw [hexec, State.extendedCompare_turns_any s k r len h]
  have reads {la : Word} (h0 : s.read la = .ok w0) (h1 : (s.turns 1).read (la + 1) = .ok w1) {i : Instr} (r : Reg)
      (len : Word) (hexec : exec i s = s.readThen2 la fun v t => .next (t.floatCompare r v len)) :
      completes 2 24 i (short r) (unpack24 (w0 ++ w1)) len :=
    single 2 (hexec.trans
      (State.readThen2_turns (n := 0) (k := fun v t => .next (t.floatCompare r v len)) h0 h1))
  refine ⟨single 0 rfl, extended 0 rfl, fun h0 h1 => reads h0 h1 accDouble 1 rfl,
    fun h0 h1 => reads h0 h1 accDouble 1 rfl, fun h0 h1 => ⟨reads h0 h1 ra 2 rfl, fun h2 => extended 3 ?_⟩⟩
  exact State.readThen3_turns (n := 0) (k := fun v t => .next (t.extendedCompare ra v 2)) h0 h1 h2

end Sys2Proof.Certificates
end

section
/-! What the decoder's answers say of the words, column by column: what decodes is what the encoder writes, and which
first words are undefined; and the statements EncodeOfDecode, SampleWordsDecode. -/

namespace Sys2Proof

/-! ### What the first word settles, as an instruction and its words -/

/-- The instruction, once the second word is there. -/
def Partial.instr : Partial → Word → Instr
  | .whole i, _ => i
  | .needs k, w1 => k w1

/-- The words of the instruction after its first one. -/
def Partial.tail : Partial → Word → List Word
  | .whole _, _ => []
  | .needs _, w1 => [w1]

/-- Every instruction that begins so is well-formed and is what the encoder writes for it. -/
def Partial.Writes (p : Partial) (w0 : Word) : Prop :=
  ∀ w1, wellFormed (p.instr w1) = true ∧ encode (p.instr w1) = w0 :: p.tail w1

theorem decodeWords_eq_ok {ws rest : List Word} {i : Instr} (h : decodeWords ws = .ok (i, rest)) :
    ∃ (w0 w1 : Word) (p : Partial), decodeFirst w0 = some p ∧ i = p.instr w1 ∧ ws = w0 :: p.tail w1 ++ rest := by
  cases ws with
  | nil => cases h
  | cons w0 ws =>
    rw [decodeWords] at h
    split at h
    · cases h
    · next hfirst =>
      cases h
      exact ⟨w0, 0, _, hfirst, rfl, rfl⟩
    · next k hfirst =>
      cases ws with
      | nil => cases h
      | cons w1 ws =>
        cases h
        exact ⟨w0, w1, _, hfirst, rfl, rfl⟩

/-! ### A first word is made of its fields (30_encoding.md R161 to R167) -/

section
variable (w0 : Word)

theorem rr_fields : rr (hiNibble w0 ++ loNibble w0) (field1 w0) (field2 w0) = w0 := by
  have hop : (hiNibble w0 ++ loNibble w0 : BitVec (4 + 4)) = w0.extractLsb' 8 8 :=
    BitVec.extractLsb'_append_extractLsb'_eq_extractLsb' rfl
  have hlow : (field1 w0 ++ field2 w0 : BitVec (4 + 4)) = w0.extractLsb' 0 8 :=
    BitVec.extractLsb'_append_extractLsb'_eq_extractLsb' rfl
  rw [rr_eq_append, hop, hlow]
  exact (BitVec.extractLsb'_append_extractLsb'_eq_extractLsb' rfl).trans BitVec.extractLsb'_eq_self

theorem based_fields :
    based (w0.extractLsb' 10 6) (baseReg (w0.extractLsb' 8 2)) (w0.extractLsb' 0 8) = w0 := by
  have hlow : (w0.extractLsb' 8 2 ++ w0.extractLsb' 0 8 : BitVec (2 + 8)) = w0.extractLsb' 0 10 :=
    BitVec.extractLsb'_append_extractLsb'_eq_extractLsb' rfl
  rw [based_eq_append, (isBase_baseReg _).2, hlow]
  exact (BitVec.extractLsb'_append_extractLsb'_eq_extractLsb' rfl).trans BitVec.extractLsb'_eq_self

theorem based_fields_indexed (h4 : hiNibble w0 = 4#4) (hx : w0.extractLsb' 10 2 = 0#2) :
    based 0x10 (baseReg (w0.extractLsb' 8 2)) (field1 w0 ++ field2 w0) = w0 := by
  have h4' : w0.extractLsb' 12 4 = 4#4 := h4
  have hop : (w0.extractLsb' 12 4 ++ w0.extractLsb' 10 2 : BitVec (4 + 2)) = w0.extractLsb' 10 6 :=
    BitVec.extractLsb'_append_extractLsb'_eq_extractLsb' rfl
  rw [h4', hx] at hop
  have hlow : (field1 w0 ++ field2 w0 : BitVec (4 + 4)) = w0.extractLsb' 0 8 :=
    BitVec.extractLsb'_append_extractLsb'_eq_extractLsb' rfl
  rw [hlow]
  exact (congrArg (fun op => based op _ _) hop).trans (based_fields w0)

end

/-- Formats S and ICR hold the two fields of RR as one. -/
theorem special_append (op : BitVec 8) (f1 f2 : BitVec 4) : special op (f1 ++ f2) = rr op f1 f2 :=
  (rr_eq_append op f1 f2).symm

/-! ### Each column writes what it decodes -/

section
variable {op : BitVec 8} {f1 f2 : BitVec 4} {i : Instr} {t : List Word}

/-- An instruction with a count in its first field. -/
theorem writes_count_first (hwf : wellFormed i = countOk (fieldCount f1))
    (henc : encode i = rr op (countField (fieldCount f1)) f2 :: t) :
    wellFormed i = true ∧ encode i = rr op f1 f2 :: t := by
  obtain ⟨hok, hfield⟩ := countOk_fieldCount f1
  exact ⟨hwf.trans hok, henc.trans (by rw [hfield])⟩

/-- An instruction with a count in its second field. -/
theorem writes_count_second (hwf : wellFormed i = countOk (fieldCount f2))
    (henc : encode i = rr op f1 (countField (fieldCount f2)) :: t) :
    wellFormed i = true ∧ encode i = rr op f1 f2 :: t := by
  obtain ⟨hok, hfield⟩ := countOk_fieldCount f2
  exact ⟨hwf.trans hok, henc.trans (by rw [hfield])⟩

/-- An instruction whose fields are one of 8 bits. -/
theorem writes_special (hwf : wellFormed i = true) (henc : encode i = special op (f1 ++ f2) :: t) :
    wellFormed i = true ∧ encode i = rr op f1 f2 :: t :=
  ⟨hwf, henc.trans (by rw [special_append])⟩

end

section
variable {p : Partial} {lo f1 f2 : BitVec 4}

theorem decodeBase_writes {op6 : BitVec 6} {br : Reg} {d : BitVec 8} (hbr : Reg.isBase br = true)
    (h : decodeBase op6 br d = some p) : p.Writes (based op6 br d) := by
  unfold decodeBase at h
  split at h
  case h_17 => cases h
  all_goals
    cases h
    exact fun _ => ⟨hbr, rfl⟩

theorem decodeBaseIndexed_writes {opex : BitVec 4} {br rx : Reg} (hbr : Reg.isBase br = true)
    (h : decodeBaseIndexed opex br rx = some p) : p.Writes (based 0x10 br (opex ++ rx)) := by
  unfold decodeBaseIndexed at h
  split at h
  case h_17 => cases h
  all_goals
    cases h
    exact fun _ => ⟨hbr, rfl⟩

theorem decodeImmediate_writes {opex : BitVec 4} {ra : Reg} (h : decodeImmediate opex ra = some p) :
    p.Writes (rr 0x4A ra opex) := by
  unfold decodeImmediate at h
  split at h
  case h_12 => cases h
  all_goals
    cases h
    exact fun _ => ⟨rfl, rfl⟩

theorem decodeExtension_writes (h : decodeExtension lo f1 f2 = some p) : p.Writes (rr (0x4#4 ++ lo) f1 f2) := by
  unfold decodeExtension at h
  split at h
  case h_3 => exact decodeImmediate_writes h
  case h_4 =>
    cases h
    exact fun _ => writes_special rfl rfl
  case h_5 => cases h
  all_goals
    cases h
    exact fun _ => ⟨rfl, rfl⟩

theorem decodeBit_writes (h : decodeBit lo f1 f2 = some p) : p.Writes (rr (0x5#4 ++ lo) f1 f2) := by
  unfold decodeBit at h
  split at h
  case h_14 => cases h
  all_goals
    cases h
    exact fun _ => ⟨rfl, rfl⟩

theorem decodeShift_writes (h : decodeShift lo f1 f2 = some p) : p.Writes (rr (0x6#4 ++ lo) f1 f2) := by
  unfold decodeShift at h
  split at h
  case h_1 | h_2 | h_3 | h_4 | h_5 | h_6 | h_7 | h_8 =>
    cases h
    exact fun _ => writes_count_first rfl rfl
  case h_15 => cases h
  all_goals
    cases h
    exact fun _ => ⟨rfl, rfl⟩

theorem decodeJump_writes (h : decodeJump lo f1 f2 = some p) : p.Writes (rr (0x7#4 ++ lo) f1 f2) := by
  unfold decodeJump at h
  split at h
  case h_5 | h_6 | h_7 | h_9 | h_10 | h_11 | h_12 =>
    cases h
    exact fun _ => writes_special rfl rfl
  case h_8 | h_13 | h_14 | h_16 =>
    split at h
    · next hzero =>
      cases h
      rw [hzero]
      exact fun _ => ⟨rfl, rfl⟩
    · cases h
  case h_17 => cases h
  all_goals
    cases h
    exact fun _ => ⟨rfl, rfl⟩

theorem decodeLoad_writes (h : decodeLoad lo f1 f2 = some p) : p.Writes (rr (0x8#4 ++ lo) f1 f2) := by
  unfold decodeLoad at h
  split at h
  case h_3 | h_4 =>
    cases h
    exact fun _ => writes_count_second rfl rfl
  case h_17 => cases h
  all_goals
    cases h
    exact fun _ => ⟨rfl, rfl⟩

theorem decodeStore_writes (h : decodeStore lo f1 f2 = some p) : p.Writes (rr (0x9#4 ++ lo) f1 f2) := by
  unfold decodeStore at h
  split at h
  case h_16 => cases h
  all_goals
    cases h
    exact fun _ => ⟨rfl, rfl⟩

theorem decodeAdd_writes (h : decodeAdd lo f1 f2 = some p) : p.Writes (rr (0xA#4 ++ lo) f1 f2) := by
  unfold decodeAdd at h
  split at h
  case h_3 =>
    cases h
    exact fun _ => writes_count_second rfl rfl
  case h_4 =>
    cases h
    exact fun _ => writes_count_first rfl rfl
  case h_14 => cases h
  all_goals
    cases h
    exact fun _ => ⟨rfl, rfl⟩

theorem decodeSub_writes (h : decodeSub lo f1 f2 = some p) : p.Writes (rr (0xB#4 ++ lo) f1 f2) := by
  unfold decodeSub at h
  split at h
  case h_3 =>
    cases h
    exact fun _ => writes_count_second rfl rfl
  case h_4 =>
    cases h
    exact fun _ => writes_count_first rfl rfl
  case h_14 => cases h
  all_goals
    cases h
    exact fun _ => ⟨rfl, rfl⟩

theorem decodeMult_writes (h : decodeMult lo f1 f2 = some p) : p.Writes (rr (0xC#4 ++ lo) f1 f2) := by
  unfold decodeMult at h
  split at h
  case h_3 | h_4 =>
    cases h
    exact fun _ => writes_count_second rfl rfl
  case h_13 => cases h
  all_goals
    cases h
    exact fun _ => ⟨rfl, rfl⟩

theorem decodeDivide_writes (h : decodeDivide lo f1 f2 = some p) : p.Writes (rr (0xD#4 ++ lo) f1 f2) := by
  unfold decodeDivide at h
  split at h
  case h_3 | h_4 =>
    cases h
    exact fun _ => writes_count_second rfl rfl
  case h_13 => cases h
  all_goals
    cases h
    exact fun _ => ⟨rfl, rfl⟩

theorem decodeLogical_writes (h : decodeLogical lo f1 f2 = some p) : p.Writes (rr (0xE#4 ++ lo) f1 f2) := by
  unfold decodeLogical at h
  split at h
  case h_13 =>
    split at h
    · next hzero =>
      cases h
      rw [hzero]
      exact fun _ => ⟨rfl, rfl⟩
    · cases h
  case h_15 => cases h
  all_goals
    cases h
    exact fun _ => ⟨rfl, rfl⟩

theorem decodeCompare_writes (h : decodeCompare lo f1 f2 = some p) : p.Writes (rr (0xF#4 ++ lo) f1 f2) := by
  unfold decodeCompare at h
  split at h
  case h_3 | h_4 =>
    cases h
    exact fun _ => writes_count_second rfl rfl
  case h_12 =>
    rw [← special_append]
    split at h
    · next hnop =>
      cases h
      rw [hnop]
      exact fun _ => ⟨rfl, rfl⟩
    · split at h
      · next hbpt =>
        cases h
        rw [hbpt]
        exact fun _ => ⟨rfl, rfl⟩
      · cases h
  case h_13 => cases h
  all_goals
    cases h
    exact fun _ => ⟨rfl, rfl⟩

theorem decodeColumn_writes {hi : BitVec 4} (h : decodeColumn hi lo f1 f2 = some p) :
    p.Writes (rr (hi ++ lo) f1 f2) := by
  unfold decodeColumn at h
  split at h
  · exact decodeExtension_writes h
  · exact decodeBit_writes h
  · exact decodeShift_writes h
  · exact decodeJump_writes h
  · exact decodeLoad_writes h
  · exact decodeStore_writes h
  · exact decodeAdd_writes h
  · exact decodeSub_writes h
  · exact decodeMult_writes h
  · exact decodeDivide_writes h
  · exact decodeLogical_writes h
  · exact decodeCompare_writes h
  · cases h

/-- The first word is that of the base relative group, of the indexed one, or of a column. -/
theorem decodeFirst_writes {w0 : Word} (h : decodeFirst w0 = some p) : p.Writes w0 := by
  by_cases h4 : (hiNibble w0).toNat < 4
  · rw [decodeFirst_eq_base h4] at h
    have hw := decodeBase_writes (isBase_baseReg _).1 h
    rwa [based_fields] at hw
  by_cases hx : hiNibble w0 = 4#4 ∧ w0.extractLsb' 10 2 = 0#2
  · rw [decodeFirst_eq_indexed hx.1 hx.2] at h
    have hw := decodeBaseIndexed_writes (isBase_baseReg _).1 h
    rwa [based_fields_indexed w0 hx.1 hx.2] at hw
  · rw [decodeFirst_eq_column (not_lt.1 h4) fun h4 hx' => hx ⟨h4, hx'⟩] at h
    have hw := decodeColumn_writes h
    rwa [rr_fields] at hw

end

/-! ### The undefined first words (30_encoding.md R195, R196) -/

/-- The opcode byte and the two fields of an undefined first word. -/
def undefinedFields (op f1 f2 : Nat) : Bool :=
  [0x44, 0x45, 0x46, 0x47, 0x4B, 0x4C, 0x4D, 0x4E, 0x5B, 0x5D, 0x5F, 0x64, 0x69, 0x95, 0xAD, 0xAE, 0xAF, 0xBD,
    0xBE, 0xBF,
    0xCC, 0xCD, 0xCE, 0xCF, 0xDC, 0xDD, 0xDE, 0xDF, 0xEE, 0xEF, 0xF5, 0xFC, 0xFD, 0xFE].contains op ||
    (op == 0x4A && [0x0, 0xC, 0xD, 0xE, 0xF].contains f2) ||
    (op == 0xFF && (f1 * 16 + f2 != 0 && f1 * 16 + f2 != 255)) ||
    ([0x77, 0x7C, 0x7D].contains op && f1 != 0) || ([0x7F, 0xEC].contains op && f2 != 0)

theorem forall_nibble {P : BitVec 4 → Prop}
    (h : P 0 ∧ P 1 ∧ P 2 ∧ P 3 ∧ P 4 ∧ P 5 ∧ P 6 ∧ P 7 ∧ P 8 ∧ P 9 ∧ P 10 ∧ P 11 ∧ P 12 ∧ P 13 ∧ P 14 ∧ P 15)
    (v : BitVec 4) : P v := by
  obtain ⟨h0, h1, h2, h3, h4, h5, h6, h7, h8, h9, h10, h11, h12, h13, h14, h15⟩ := h
  obtain ⟨k, hk⟩ := v
  interval_cases k <;> assumption

theorem isNone_ite_some {α : Type} {c : Prop} [Decidable c] (a : α) :
    (if c then some a else none).isNone = !decide c := by
  split <;> simp [*]

theorem not_decide_eq_zero (f : BitVec 4) : (!decide (f = 0)) = (f.toNat != 0) := by
  revert f
  decide

/-- A column refuses the low nibbles and fields it should. -/
def Refuses (column : BitVec 4 → BitVec 4 → BitVec 4 → Option Partial) (op : Nat) (f1 f2 lo : BitVec 4) : Prop :=
  (column lo f1 f2).isNone = undefinedFields (op + lo.toNat) f1.toNat f2.toNat

section
variable (f1 f2 : BitVec 4)

/-- A column that accepts a nibble where its first field is zero. -/
theorem refuses_first {column : BitVec 4 → BitVec 4 → BitVec 4 → Option Partial} {op : Nat} {lo : BitVec 4}
    {p : Partial}
    (hcolumn : column lo f1 f2 = if f1 = 0 then some p else none)
    (hop : undefinedFields (op + lo.toNat) f1.toNat f2.toNat = (f1.toNat != 0 || false)) :
    Refuses column op f1 f2 lo := by
  rw [Refuses, hcolumn, hop, isNone_ite_some, not_decide_eq_zero, Bool.or_false]

theorem refuses_second {column : BitVec 4 → BitVec 4 → BitVec 4 → Option Partial} {op : Nat} {lo : BitVec 4}
    {p : Partial} (hcolumn : column lo f1 f2 = if f2 = 0 then some p else none)
    (hop : undefinedFields (op + lo.toNat) f1.toNat f2.toNat = (f2.toNat != 0)) : Refuses column op f1 f2 lo := by
  rw [Refuses, hcolumn, hop, isNone_ite_some, not_decide_eq_zero]

theorem decodeImmediate_refuses : ∀ opex, Refuses (fun _ f1 f2 => decodeImmediate f2 f1) 0x40 f1 opex 0xA :=
  forall_nibble (by and_intros <;> rfl)

theorem decodeExtension_refuses : ∀ lo, 4 ≤ lo.toNat → Refuses decodeExtension 0x40 f1 f2 lo := by
  refine forall_nibble ⟨?_, ?_, ?_, ?_, ?_, ?_, ?_, ?_, ?_, ?_, fun _ => decodeImmediate_refuses f1 f2, ?_, ?_,
    ?_, ?_, ?_⟩
  case refine_1 | refine_2 | refine_3 | refine_4 => exact fun h => absurd h (by decide)
  all_goals exact fun _ => rfl

theorem decodeBit_refuses : ∀ lo, Refuses decodeBit 0x50 f1 f2 lo := forall_nibble (by and_intros <;> rfl)

theorem decodeShift_refuses : ∀ lo, Refuses decodeShift 0x60 f1 f2 lo := forall_nibble (by and_intros <;> rfl)

theorem decodeJump_refuses : ∀ lo, Refuses decodeJump 0x70 f1 f2 lo := by
  refine forall_nibble ⟨?_, ?_, ?_, ?_, ?_, ?_, ?_, refuses_first f1 f2 rfl ?_, ?_, ?_, ?_, ?_,
    refuses_first f1 f2 rfl ?_, refuses_first f1 f2 rfl ?_, ?_, refuses_second f1 f2 rfl ?_⟩ <;> rfl

theorem decodeLoad_refuses : ∀ lo, Refuses decodeLoad 0x80 f1 f2 lo := forall_nibble (by and_intros <;> rfl)

theorem decodeStore_refuses : ∀ lo, Refuses decodeStore 0x90 f1 f2 lo := forall_nibble (by and_intros <;> rfl)

theorem decodeAdd_refuses : ∀ lo, Refuses decodeAdd 0xA0 f1 f2 lo := forall_nibble (by and_intros <;> rfl)

theorem decodeSub_refuses : ∀ lo, Refuses decodeSub 0xB0 f1 f2 lo := forall_nibble (by and_intros <;> rfl)

theorem decodeMult_refuses : ∀ lo, Refuses decodeMult 0xC0 f1 f2 lo := forall_nibble (by and_intros <;> rfl)

theorem decodeDivide_refuses : ∀ lo, Refuses decodeDivide 0xD0 f1 f2 lo := forall_nibble (by and_intros <;> rfl)

theorem decodeLogical_refuses : ∀ lo, Refuses decodeLogical 0xE0 f1 f2 lo := by
  refine forall_nibble ⟨?_, ?_, ?_, ?_, ?_, ?_, ?_, ?_, ?_, ?_, ?_, ?_, refuses_second f1 f2 rfl ?_, ?_, ?_, ?_⟩ <;> rfl

/-- The last row of the table has NOP and BPT only. -/
theorem decodeCompare_refuses_last : Refuses decodeCompare 0xF0 f1 f2 0xF := by
  have hfields : ∀ f1 f2 : BitVec 4, (f1 ++ f2 = 0x00#8 ↔ f1.toNat * 16 + f2.toNat = 0) ∧
      (f1 ++ f2 = 0xFF#8 ↔ f1.toNat * 16 + f2.toNat = 255) := by
    decide
  obtain ⟨hnop, hbpt⟩ := hfields f1 f2
  have hcolumn : decodeCompare 0xF f1 f2 =
      if f1 ++ f2 = 0x00#8 then some (.whole .nop) else if f1 ++ f2 = 0xFF#8 then some (.whole .bpt) else none := rfl
  have hop : undefinedFields (0xF0 + 0xF) f1.toNat f2.toNat =
      (f1.toNat * 16 + f2.toNat != 0 && f1.toNat * 16 + f2.toNat != 255) := by
    show ((f1.toNat * 16 + f2.toNat != 0 && f1.toNat * 16 + f2.toNat != 255) || false || false) = _
    rw [Bool.or_false, Bool.or_false]
  show (decodeCompare 0xF f1 f2).isNone = undefinedFields (0xF0 + 0xF) f1.toNat f2.toNat
  rw [hcolumn, hop]
  simp only [hnop, hbpt]
  generalize f1.toNat * 16 + f2.toNat = d
  split
  · next h => simp [h]
  · next h0 =>
    split
    · next h => simp [h]
    · next h255 => simp [h0, h255]

theorem decodeCompare_refuses : ∀ lo, Refuses decodeCompare 0xF0 f1 f2 lo := by
  refine forall_nibble ⟨?_, ?_, ?_, ?_, ?_, ?_, ?_, ?_, ?_, ?_, ?_, ?_, ?_, ?_, ?_,
    decodeCompare_refuses_last f1 f2⟩ <;> rfl

/-- Every word of the base relative groups is defined. -/
theorem decodeBase_isNone {op6 : BitVec 6} (br : Reg) (d : BitVec 8) (h : op6.toNat < 16) :
    (decodeBase op6 br d).isNone = false := by
  unfold decodeBase
  split
  case h_17 =>
    exfalso
    revert op6
    decide
  all_goals rfl

theorem decodeBaseIndexed_isNone (opex : BitVec 4) (br rx : Reg) : (decodeBaseIndexed opex br rx).isNone = false :=
  forall_nibble (P := fun opex => (decodeBaseIndexed opex br rx).isNone = false) (by and_intros <;> rfl) opex

/-- Every column, the base relative indexed group apart, refuses what is listed. -/
theorem decodeColumn_isNone (hi lo : BitVec 4) (hhi : 4 ≤ hi.toNat) (hx : hi = 4 → 4 ≤ lo.toNat) :
    (decodeColumn hi lo f1 f2).isNone = undefinedFields (hi.toNat * 16 + lo.toNat) f1.toNat f2.toNat := by
  revert hi
  refine forall_nibble ⟨?_, ?_, ?_, ?_, fun _ hx => decodeExtension_refuses f1 f2 lo (hx rfl),
    fun _ _ => decodeBit_refuses f1 f2 lo, fun _ _ => decodeShift_refuses f1 f2 lo,
    fun _ _ => decodeJump_refuses f1 f2 lo, fun _ _ => decodeLoad_refuses f1 f2 lo,
    fun _ _ => decodeStore_refuses f1 f2 lo, fun _ _ => decodeAdd_refuses f1 f2 lo,
    fun _ _ => decodeSub_refuses f1 f2 lo, fun _ _ => decodeMult_refuses f1 f2 lo,
    fun _ _ => decodeDivide_refuses f1 f2 lo, fun _ _ => decodeLogical_refuses f1 f2 lo,
    fun _ _ => decodeCompare_refuses f1 f2 lo⟩
  all_goals exact fun h => absurd h (by decide)

end

/-- The undefined first words by their numbers. -/
theorem decodeFirst_isNone (w0 : Word) :
    (decodeFirst w0).isNone = undefinedFields (w0.toNat / 256) (w0.toNat / 16 % 16) (w0.toNat % 16) := by
  have hlt := w0.isLt
  have hhi : (hiNibble w0).toNat = w0.toNat / 4096 := by
    rw [hiNibble, BitVec.extractLsb'_toNat, Nat.shiftRight_eq_div_pow]
    omega
  have hlo : (loNibble w0).toNat = w0.toNat / 256 % 16 := by
    rw [loNibble, BitVec.extractLsb'_toNat, Nat.shiftRight_eq_div_pow]
  have hf1 : (field1 w0).toNat = w0.toNat / 16 % 16 := by
    rw [field1, BitVec.extractLsb'_toNat, Nat.shiftRight_eq_div_pow]
  have hf2 : (field2 w0).toNat = w0.toNat % 16 := by
    rw [field2, BitVec.extractLsb'_toNat, Nat.shiftRight_eq_div_pow, pow_zero, Nat.div_one]
  have hbase : (w0.extractLsb' 10 2).toNat = w0.toNat / 1024 % 4 := by
    rw [BitVec.extractLsb'_toNat, Nat.shiftRight_eq_div_pow]
  have hdefined : w0.toNat / 256 < 0x44 →
      undefinedFields (w0.toNat / 256) (w0.toNat / 16 % 16) (w0.toNat % 16) = false := by
    generalize w0.toNat / 256 = op
    intro hop
    interval_cases op <;> rfl
  by_cases h4 : (hiNibble w0).toNat < 4
  · rw [decodeFirst_eq_base h4, hdefined (by omega)]
    have hop6 : (w0.extractLsb' 10 6).toNat < 16 := by
      rw [BitVec.extractLsb'_toNat, Nat.shiftRight_eq_div_pow]
      omega
    exact decodeBase_isNone _ _ hop6
  by_cases hx : hiNibble w0 = 4#4 ∧ w0.extractLsb' 10 2 = 0#2
  · obtain ⟨hx4, hx0⟩ := hx
    rw [hx4] at hhi
    rw [hx0] at hbase
    have hop : w0.toNat / 256 < 0x44 := by
      change 4 = _ at hhi
      change 0 = _ at hbase
      omega
    rw [decodeFirst_eq_indexed hx4 hx0, hdefined hop]
    exact decodeBaseIndexed_isNone _ _ _
  · rw [decodeFirst_eq_column (not_lt.1 h4) fun h4 hx' => hx ⟨h4, hx'⟩]
    rw [decodeColumn_isNone _ _ _ _ (not_lt.1 h4), hhi, hlo, hf1, hf2]
    · congr 1
      omega
    · intro hx4
      rw [hx4] at hhi
      change 4 = _ at hhi
      have hne : w0.toNat / 1024 % 4 ≠ 0 := fun h0 => hx ⟨hx4, BitVec.eq_of_toNat_eq (hbase.trans h0)⟩
      omega

theorem undefinedFields_iff (op f1 f2 : Nat) :
    undefinedFields op f1 f2 = true ↔
      op ∈ [0x44, 0x45, 0x46, 0x47, 0x4B, 0x4C, 0x4D, 0x4E, 0x5B, 0x5D, 0x5F, 0x64, 0x69, 0x95, 0xAD, 0xAE, 0xAF, 0xBD,
          0xBE, 0xBF, 0xCC, 0xCD, 0xCE, 0xCF, 0xDC, 0xDD, 0xDE, 0xDF, 0xEE, 0xEF, 0xF5, 0xFC, 0xFD, 0xFE] ∨
        (op = 0x4A ∧ f2 ∈ [0x0, 0xC, 0xD, 0xE, 0xF]) ∨ (op = 0xFF ∧ f1 * 16 + f2 ≠ 0 ∧ f1 * 16 + f2 ≠ 255) ∨
        (op ∈ [0x77, 0x7C, 0x7D] ∧ f1 ≠ 0) ∨ (op ∈ [0x7F, 0xEC] ∧ f2 ≠ 0) := by
  simp only [undefinedFields, Bool.or_eq_true, Bool.and_eq_true, List.contains_iff_mem, beq_iff_eq, bne_iff_ne,
    or_assoc]

end Sys2Proof

/-! ### The statements -/

namespace Sys2Proof.Certificates

/-- Settles O34: each column writes what it decodes, and refuses what is listed. -/
theorem encodeOfDecode : Obligations.EncodeOfDecode := by
  constructor
  · intro ws rest i h
    obtain ⟨w0, w1, p, hfirst, rfl, rfl⟩ := decodeWords_eq_ok h
    obtain ⟨hwf, henc⟩ := decodeFirst_writes hfirst w1
    exact ⟨hwf, by rw [henc]⟩
  · intro w0 op f1 f2
    have hlow : f1 * 16 + f2 = w0.toNat % 256 := by omega
    rw [decodeFirst_isNone, undefinedFields_iff, hlow]

/-- Settles O35: a word of every column. -/
theorem sampleWordsDecode : Obligations.SampleWordsDecode := by
  and_intros <;> rfl

end Sys2Proof.Certificates
end

section
/-! The fetch of an instruction, check by check, and the statements StepRunsDecoded, FaultsBeforeExecution,
ResetState. -/

namespace Sys2Proof.Machine

/-! ### The fetch (60_exceptions.md R804) -/

section
variable {s : State} {w0 w1 : Word}

theorem State.fetchInstr_error {e : Stop} (h : s.fetch s.ic = .error e) : s.fetchInstr = (.error e, s.turns 1) := by
  rw [State.fetchInstr, h]
  rfl

theorem State.fetchInstr_undefined (h : s.fetch s.ic = .ok w0) (hd : decodeFirst w0 = none) :
    s.fetchInstr = (.error (.fault illegalInstruction), s.turns 1) := by
  rw [State.fetchInstr, h]
  dsimp only
  rw [hd]
  rfl

/-- The privileged instructions in a user mode (60_exceptions.md R830). -/
def State.traps (s : State) (w0 : Word) : Bool := isPrivilegedWord w0 && s.ps != 0#4

theorem State.traps_eq_false (h : s.ps = 0#4 ∨ isPrivilegedWord w0 = false) : s.traps w0 = false := by
  rcases h with h | h
  · rw [State.traps, h]
    exact Bool.and_false _
  · rw [State.traps, h]
    exact Bool.false_and _

theorem State.fetchInstr_privileged {p : Partial} (h : s.fetch s.ic = .ok w0) (hd : decodeFirst w0 = some p)
    (ht : s.traps w0 = true) : s.fetchInstr = (.error (.fault privilegedFault), s.turns 1) := by
  rw [State.fetchInstr, h]
  dsimp only
  rw [hd]
  exact if_pos ht

theorem State.fetchInstr_whole {i : Instr} (h : s.fetch s.ic = .ok w0) (hd : decodeFirst w0 = some (.whole i))
    (ht : s.traps w0 = false) : s.fetchInstr = (.ok i, s.turns 1) := by
  rw [State.fetchInstr, h]
  dsimp only
  rw [hd]
  exact if_neg (Bool.eq_false_iff.1 ht)

theorem State.fetchInstr_needs {k : Word → Instr} (h : s.fetch s.ic = .ok w0) (hd : decodeFirst w0 = some (.needs k))
    (ht : s.traps w0 = false) (h1 : (s.turns 1).fetch (s.ic + 1) = .ok w1) :
      s.fetchInstr = (.ok (k w1), s.turns 2) := by
  have h1' : s.turn.fetch (s.ic + 1) = .ok w1 := h1
  rw [State.fetchInstr, h]
  dsimp only
  rw [hd, h1']
  exact if_neg (Bool.eq_false_iff.1 ht)

theorem State.fetchInstr_second_error {k : Word → Instr} {e : Stop} (h : s.fetch s.ic = .ok w0)
    (hd : decodeFirst w0 = some (.needs k)) (ht : s.traps w0 = false)
    (h1 : (s.turns 1).fetch (s.ic + 1) = .error e) : s.fetchInstr = (.error e, s.turns 2) := by
  have h1' : s.turn.fetch (s.ic + 1) = .error e := h1
  rw [State.fetchInstr, h]
  dsimp only
  rw [hd, h1']
  exact if_neg (Bool.eq_false_iff.1 ht)

/-! ### The step -/

theorem step_of_fetched {i : Instr} {t : State} (hh : s.halted = false) (h : s.fetchInstr = (.ok i, t)) :
    step s = finishStep s.enblPending (exec i t) := by
  rw [step, hh, State.runInstruction, h]
  rfl

theorem step_of_stopped {e : Stop} {t : State} (hh : s.halted = false) (h : s.fetchInstr = (.error e, t)) :
    step s = finishStep s.enblPending (t.stop e) := by
  rw [step, hh, State.runInstruction, h]
  rfl

/-- A fault of the fetch is raised in the state its references leave, and the boundary follows. -/
theorem step_of_fetch_fault {f : FaultReq} {k : Nat} (hh : s.halted = false)
    (h : s.fetchInstr = (.error (.fault f), s.turns k)) :
    ∃ ic : Word, step s =
      .next (((s.turns k).afterFault (bitMask (f.bit.number s.cfg)) f.bit f.designators ic).boundary s.enblPending)
        := by
  refine ⟨(s.turns k).free 0, ?_⟩
  rw [step_of_stopped hh h, State.stop, State.raise_eq_afterFault, State.turns_cfg]
  rfl

end

/-! ### What decodes -/

theorem decodeWords_needs_of_ok {w0 w1 : Word} {i : Instr} (h : decodeWords [w0, w1] = .ok (i, [])) :
    ∃ k, decodeFirst w0 = some (.needs k) := by
  obtain ⟨w0', w1', p, hfirst, _, hws⟩ := decodeWords_eq_ok h
  cases p with
  | whole i => cases hws
  | needs k =>
    cases hws
    exact ⟨k, hfirst⟩

/-- What decodes is one or two words long, and so are its fetches. -/
theorem step_of_decoded {s : State} {w0 w1 : Word} {i : Instr} (hh : s.halted = false) (h0 : s.fetch s.ic = .ok w0)
    (h1 : i.length = 2 → (s.turns 1).fetch (s.ic + 1) = .ok w1)
    (hd : decodeWords [w0, w1] = .ok (i, [w0, w1].drop i.length)) (ht : s.traps w0 = false) :
    step s = finishStep s.enblPending (exec i (s.turns i.length)) := by
  cases hfirst : decodeFirst w0 with
  | none =>
    rw [decodeWords, hfirst] at hd
    cases hd
  | some p =>
    have hw := decodeFirst_writes hfirst w1
    cases p with
    | whole j =>
      rw [decodeWords_whole [w1] hfirst] at hd
      injection hd with hd
      obtain ⟨rfl, _⟩ := Prod.mk.inj hd
      have hlen : j.length = 1 := congrArg List.length hw.2
      rw [hlen, step_of_fetched hh (State.fetchInstr_whole h0 hfirst ht)]
    | needs k =>
      rw [decodeWords_needs [] w1 hfirst] at hd
      injection hd with hd
      obtain ⟨rfl, _⟩ := Prod.mk.inj hd
      have hlen : (k w1).length = 2 := congrArg List.length hw.2
      rw [hlen, step_of_fetched hh (State.fetchInstr_needs h0 hfirst ht (h1 hlen))]

/-- The first word of a privileged instruction, by its numbers; where it is undefined the fault is another one. -/
theorem isPrivilegedWord_iff {w0 : Word} (hd : (decodeFirst w0).isNone = false) :
    isPrivilegedWord w0 = true ↔
      w0.toNat / 256 = 0x48 ∨ w0.toNat / 256 = 0x49 ∨
        ((w0.toNat / 256 = 0x7C ∨ w0.toNat / 256 = 0x7D) ∧ w0.toNat / 16 % 16 = 0) := by
  have hlt := w0.isLt
  have hop : (w0.extractLsb' 8 8).toNat = w0.toNat / 256 := by
    rw [BitVec.extractLsb'_toNat, Nat.shiftRight_eq_div_pow]
    omega
  have hfield : (w0.toNat / 256 = 0x7C ∨ w0.toNat / 256 = 0x7D) → w0.toNat / 16 % 16 = 0 := by
    intro h
    by_contra hne
    rw [decodeFirst_isNone, Bool.eq_false_iff, ne_eq, undefinedFields_iff] at hd
    refine hd (Or.inr (Or.inr (Or.inr (Or.inl ⟨?_, hne⟩))))
    rcases h with h | h <;> rw [h] <;> decide
  have hword : isPrivilegedWord w0 = true ↔
      w0.toNat / 256 = 0x48 ∨ w0.toNat / 256 = 0x49 ∨ w0.toNat / 256 = 0x7C ∨ w0.toNat / 256 = 0x7D := by
    simp only [isPrivilegedWord, Bool.or_eq_true, beq_iff_eq, ← BitVec.toNat_inj, hop, or_assoc]
    rfl
  rw [hword]
  refine or_congr_right (or_congr_right ⟨fun h => ⟨h, hfield h⟩, fun h => h.1⟩)

/-- The privileged opcodes are defined. -/
theorem privileged_defined {w0 : Word}
    (h : w0.toNat / 256 = 0x48 ∨ w0.toNat / 256 = 0x49 ∨
      ((w0.toNat / 256 = 0x7C ∨ w0.toNat / 256 = 0x7D) ∧ w0.toNat / 16 % 16 = 0)) :
    (decodeFirst w0).isNone = false := by
  rw [decodeFirst_isNone]
  rcases h with h | h | ⟨h | h, h0⟩
  · rw [h]
    rfl
  · rw [h]
    rfl
  · rw [h, h0]
    rfl
  · rw [h, h0]
    rfl

end Sys2Proof.Machine

/-! ### The statements -/

namespace Sys2Proof.Certificates

open Sys2Proof.Machine

/-- Settles O36: the words that decode are fetched and run, then the boundary. -/
theorem stepRunsDecoded : Obligations.StepRunsDecoded := by
  constructor
  · intro s w0 w1 i hh h0 h1 hd hps
    rw [step_of_decoded hh h0 h1 hd (State.traps_eq_false hps)]
    cases exec i (s.turns i.length) <;> rfl
  · intro s h
    rw [step, h]
    rfl

/-- Settles O37: each check of the fetch in its order. -/
theorem faultsBeforeExecution : Obligations.FaultsBeforeExecution := by
  intro s w0 f r hh raises op privileged
  refine ⟨fun h => ?first, fun h => ?refused, fun h hd => ?undefined, fun h hp hps => ?privileged,
    fun h hd hp h1 => ?second⟩
  case first => exact step_of_fetch_fault hh (State.fetchInstr_error h)
  case refused =>
    rw [step_of_stopped hh (State.fetchInstr_error h)]
    rfl
  case undefined =>
    have hnone : decodeFirst w0 = none := by
      have hd := hd 0
      cases hfirst : decodeFirst w0 with
      | none => rfl
      | some p =>
        cases p with
        | whole i =>
          rw [decodeWords_whole [0] hfirst] at hd
          cases hd
        | needs k =>
          rw [decodeWords_needs [] 0 hfirst] at hd
          cases hd
    have hraise := step_of_fetch_fault hh (State.fetchInstr_undefined h hnone)
    rw [bitMask_eq_twoPow] at hraise
    exact hraise
  case privileged =>
    have hdefined := privileged_defined hp
    have hword := (isPrivilegedWord_iff hdefined).2 hp
    have ht : s.traps w0 = true := by
      rw [State.traps, hword, Bool.true_and, bne_iff_ne]
      exact hps
    cases hfirst : decodeFirst w0 with
    | none =>
      rw [hfirst] at hdefined
      cases hdefined
    | some p =>
      have hmask : bitMask (privilegedFault.bit.number s.cfg) = 0x0020#16 := rfl
      have hraise := step_of_fetch_fault hh (State.fetchInstr_privileged h hfirst ht)
      rw [hmask] at hraise
      exact hraise
  case second =>
    obtain ⟨w1, i, hd⟩ := hd
    obtain ⟨k, hfirst⟩ := decodeWords_needs_of_ok hd
    have hdefined : (decodeFirst w0).isNone = false := by
      rw [hfirst]
      rfl
    have ht : s.traps w0 = false := by
      refine State.traps_eq_false (hp.imp_right fun hp => ?_)
      rw [Bool.eq_false_iff]
      exact fun hword => hp ((isPrivilegedWord_iff hdefined).1 hword)
    exact step_of_fetch_fault hh (State.fetchInstr_second_error h hfirst ht h1)

/-- Settles O38: the values of the reset state, and the page registers by their index. -/
theorem resetState : Obligations.ResetState := by
  unfold Obligations.ResetState
  refine ⟨rfl, rfl, rfl, rfl, rfl, rfl, rfl, rfl, rfl, rfl, rfl, rfl, rfl, rfl, rfl, rfl, rfl, rfl, ?mpr, ?pages⟩
  case mpr => decide
  case pages => decide

end Sys2Proof.Certificates
end

section
/-! Memory as a function of its cells, translation and protection by their conditions, and the statements MemoryLaws,
AddressTranslation, PhysicalProtection. -/

namespace Sys2Proof.Machine

/-! ### Memory (20_memory.md R105, R106; entry 4) -/

theorem Memory.wfAbove_cons {lo k : Nat} {b : Byte} {rest : Memory} :
    Memory.wfAbove lo ((k, b) :: rest) = true ↔ lo ≤ k ∧ b ≠ Memory.fill ∧ Memory.wfAbove (k + 1) rest = true := by
  simp only [Memory.wfAbove, Bool.and_eq_true, decide_eq_true_eq, and_assoc]

theorem Memory.get_head (k : Nat) (b : Byte) (rest : Memory) : Memory.get ((k, b) :: rest) k = b := if_pos rfl

theorem Memory.get_tail {k a : Nat} (b : Byte) (rest : Memory) (h : k ≠ a) :
    Memory.get ((k, b) :: rest) a = Memory.get rest a := if_neg h

/-- Two memories in canonical form that read alike list the same cells. -/
theorem Memory.eq_of_get : ∀ {m m' : Memory} {lo : Nat}, m.wfAbove lo = true → m'.wfAbove lo = true →
    (∀ a, m.get a = m'.get a) → m = m'
  | [], [], _, _, _, _ => rfl
  | [], (k, b) :: rest, _, _, hm', h => by
    obtain ⟨_, hb, _⟩ := Memory.wfAbove_cons.1 hm'
    exact absurd ((h k).trans (Memory.get_head k b rest)).symm hb
  | (k, b) :: rest, [], _, hm, _, h => by
    obtain ⟨_, hb, _⟩ := Memory.wfAbove_cons.1 hm
    exact absurd ((Memory.get_head k b rest).symm.trans (h k)) hb
  | (k, b) :: rest, (k', b') :: rest', lo, hm, hm', h => by
    obtain ⟨_, hb, hrest⟩ := Memory.wfAbove_cons.1 hm
    obtain ⟨_, hb', hrest'⟩ := Memory.wfAbove_cons.1 hm'
    have hk : k = k' := by
      rcases lt_trichotomy k k' with hlt | heq | hgt
      · have hfill := Memory.get_below (lo := k') ((k', b') :: rest')
          (Memory.wfAbove_cons.2 ⟨le_refl k', hb', hrest'⟩) hlt
        exact absurd (((Memory.get_head k b rest).symm.trans (h k)).trans hfill) hb
      · exact heq
      · have hfill := Memory.get_below (lo := k) ((k, b) :: rest) (Memory.wfAbove_cons.2 ⟨le_refl k, hb, hrest⟩) hgt
        exact absurd (((h k').trans (Memory.get_head k' b' rest')).symm.trans hfill) hb'
    subst hk
    have hbyte : b = b' := ((Memory.get_head k b rest).symm.trans (h k)).trans (Memory.get_head k b' rest')
    have htail : rest = rest' := by
      refine Memory.eq_of_get hrest hrest' fun a => ?_
      rcases Nat.lt_or_ge a (k + 1) with hlt | hge
      · rw [Memory.get_below rest hrest hlt, Memory.get_below rest' hrest' hlt]
      · have hne : k ≠ a := by omega
        have ha := h a
        rwa [Memory.get_tail b rest hne, Memory.get_tail b' rest' hne] at ha
    rw [hbyte, htail]

theorem Memory.get_writeWord {m : Memory} (pa : Nat) (w : Word) (hm : m.wf = true) (a : Nat) :
    (m.writeWord pa w).get a =
      if a = 2 * pa then Word.upper w else if a = 2 * pa + 1 then Word.lower w else m.get a := by
  have heven : (m.put (2 * pa) (Word.upper w)).wf = true := Memory.wf_put _ _ _ hm
  rw [Memory.writeWord]
  split_ifs with h0 h1
  · rw [h0, Memory.get_put_other _ _ _ (by omega), Memory.get_put_same (lo := 0) _ _ _ hm]
  · rw [h1, Memory.get_put_same (lo := 0) _ _ _ heven]
  · rw [Memory.get_put_other _ _ _ h1, Memory.get_put_other _ _ _ h0]

theorem upper_eq_ofNat (w : Word) : Word.upper w = BitVec.ofNat 8 (w.toNat / 256) := by
  rw [Word.upper, BitVec.extractLsb', Nat.shiftRight_eq_div_pow]

theorem lower_eq_ofNat (w : Word) : Word.lower w = BitVec.ofNat 8 w.toNat := by
  rw [Word.lower, BitVec.extractLsb', Nat.shiftRight_zero]

/-! ### The page step (20_memory.md R120, R127) -/

theorem protectBit_eq (a : Agent) : protectBit a = if a = .cpu then .cpuProtect else .dmaProtect := by
  cases a <;> rfl

section
variable (s : State) (a : Agent) (k : RefKind) (g key : BitVec 4) (la : Word)

theorem State.mapPage_of_no_mmu (h : s.cfg.mmu = none) : s.mapPage a k g (some key) la = .ok la.toNat := by
  rw [State.mapPage, h]

/-- The page register, of the instruction or the operand set. -/
theorem State.pageReg_eq :
    s.pageReg k g la =
      if k = .fetch then s.ctl.iPage[(g ++ la.extractLsb' 12 4 : BitVec (4 + 4)).toNat]'(BitVec.isLt _)
      else s.ctl.oPage[(g ++ la.extractLsb' 12 4 : BitVec (4 + 4)).toNat]'(BitVec.isLt _) := by
  cases k <;> rfl

/-- The lock of a page register admits the key 0, any key if it is F, and its own. -/
theorem keyOk_iff (al key : BitVec 4) : keyOk al key = true ↔ key = 0#4 ∨ al.toNat = 15 ∨ al.toNat = key.toNat := by
  revert al key
  decide

theorem State.mapPage_of_mmu {m : MmuConfig} (h : s.cfg.mmu = some m) {r : Word} (hr : s.pageReg k g la = r) :
    s.mapPage a k g (some key) la =
      if (m.hasLock = true ∧ ¬(key = 0#4 ∨ r.toNat / 4096 = 15 ∨ r.toNat / 4096 = key.toNat)) ∨
          (k ≠ .read ∧ r.getLsbD 11 = true) then
        .error ⟨protectBit a, some (designatorsOf la (k == .fetch) g)⟩
      else .ok (r.toNat % 256 * 4096 + la.toNat % 4096) := by
  have hlt := r.isLt
  have hlock : (r.extractLsb' 12 4).toNat = r.toNat / 4096 := by
    rw [BitVec.extractLsb'_toNat, Nat.shiftRight_eq_div_pow]
    omega
  have hpage : (r.extractLsb' 0 8).toNat = r.toNat % 256 := by
    rw [BitVec.extractLsb'_toNat, Nat.shiftRight_zero]
  have hoffset : (la.extractLsb' 0 12).toNat = la.toNat % 4096 := by
    rw [BitVec.extractLsb'_toNat, Nat.shiftRight_zero]
  rw [State.mapPage, h]
  dsimp only
  rw [hr, hpage, hoffset]
  refine if_congr ?_ rfl rfl
  rw [Bool.or_eq_true, Bool.and_eq_true, Bool.and_eq_true, Bool.not_eq_true', ← Bool.not_eq_true, keyOk_iff, hlock,
    bne_iff_ne]

/-- A mapped address lies in the physical space. -/
theorem State.mapPage_lt {pa : Nat} (h : s.mapPage a k g (some key) la = .ok pa) : pa < physSize s.cfg := by
  cases hm : s.cfg.mmu with
  | none =>
    rw [State.mapPage_of_no_mmu s a k g key la hm] at h
    cases h
    rw [physSize, hm]
    exact la.isLt
  | some m =>
    rw [State.mapPage_of_mmu s a k g key la hm rfl] at h
    split at h
    · cases h
    · cases h
      rw [physSize, hm]
      have hlt := la.isLt
      show _ < 1048576
      omega

end

/-! ### The physical step (20_memory.md R130 to R135) -/

/-- Where a device's half of the protect RAM begins. -/
def protectHalf (a : Agent) : Nat := if a = .cpu then 0 else 64

section
variable {s : State} {a : Agent} {k : RefKind} {d : Word} {pa : Nat}

/-- The protect RAM refuses a store, by the bit of its block. -/
theorem State.blockProtected_eq (h : protectHalf a + pa / 16384 < 128) :
    s.blockProtected a pa =
      (s.cfg.hasMprot && s.ctl.mprotEn && decide (pa < physSize s.cfg) &&
        (s.ctl.mpr[protectHalf a + pa / 16384]'h).getLsbD (15 - pa / 1024 % 16)) := by
  have hblock : (BitVec.ofNat 4 (pa / 1024)).toNat = pa / 1024 % 16 := BitVec.toNat_ofNat _ _
  have hindex : (BitVec.ofNat 7 (protectHalf a + pa / 16384)).toNat = protectHalf a + pa / 16384 := by
    rw [BitVec.toNat_ofNat, Nat.mod_eq_of_lt h]
  have helem : s.ctl.mpr[(BitVec.ofNat 7 (protectHalf a + pa / 16384)).toNat]'(BitVec.isLt _) =
      s.ctl.mpr[protectHalf a + pa / 16384]'h := getElem_congr_idx hindex
  rw [← hblock, ← helem]
  cases a <;> rfl

theorem State.checkPhysical_protected (h : s.blockProtected a pa = true) :
    s.checkPhysical a .write d pa = .error ⟨protectBit a, some d⟩ := if_pos ⟨rfl, h⟩

theorem State.checkPhysical_rom (hk : k ≠ .write) (h : s.romOverlay pa = true) : s.checkPhysical a k d pa = .ok pa := by
  rw [State.checkPhysical, if_neg fun hw => hk hw.1, if_pos ⟨hk, h⟩]

/-- Where neither the protect RAM nor the ROM has a say, the memory does. -/
theorem State.checkPhysical_memory (hp : k = .write → s.blockProtected a pa = false)
    (hr : k ≠ .write → s.romOverlay pa = false) :
    s.checkPhysical a k d pa =
      if !physImplemented s.cfg pa then .error ⟨.illegalAddress, some d⟩
      else if s.cfg.hasParity ∧ s.ctl.badParity.contains pa then .error ⟨.parity, some d⟩
      else .ok pa := by
  have hnot : ¬(k = .write ∧ s.blockProtected a pa = true) := fun h => by
    rw [hp h.1] at h
    exact Bool.false_ne_true h.2
  have hram : ¬(k ≠ .write ∧ s.romOverlay pa = true) := fun h => by
    rw [hr h.1] at h
    exact Bool.false_ne_true h.2
  rw [State.checkPhysical, if_neg hnot, if_neg hram]

theorem State.romOverlay_eq {size : Fin 65536} (h : s.cfg.surom = some size) :
    s.romOverlay pa = (s.ctl.suromEn && decide (pa ≤ size.val)) := by
  rw [State.romOverlay, h]

end

/-! ### References of the CPU (20_memory.md R110, R112) -/

section
variable {s : State} {la : Word} {k : RefKind}

theorem State.cpuRead_eq (hg : groupImplemented s.cfg s.as = true) :
    s.cpuRead k la = match s.translate .cpu k s.as (some s.ps) la with
      | .error f => .error (.fault f)
      | .ok pa => .ok (s.turn.physRead pa) := by
  have hturn : groupImplemented s.turn.cfg s.turn.as = true := by simpa using hg
  rw [State.cpuRead, if_pos hturn, State.turn_translate, State.turn_as, State.turn_ps] <;> rfl

theorem State.cpuRead_refused (hg : groupImplemented s.cfg s.as = false) :
    s.cpuRead k la = .error (.refuse .unimplementedGroup) := by
  have hturn : ¬groupImplemented s.turn.cfg s.turn.as = true := by simpa using hg
  rw [State.cpuRead]
  exact if_neg hturn

theorem State.store_refused (hg : groupImplemented s.cfg s.as = false) (ws : List (Word × Word)) (next : State → Out) :
    s.store ws next = .refused .unimplementedGroup := if_neg (Bool.eq_false_iff.1 hg)

end

end Sys2Proof.Machine

/-! ### The statements -/

namespace Sys2Proof.Certificates

open Sys2Proof.Machine

/-- Settles O45: cells by induction on the lists, bytes of a word that is written by their numbers. -/
theorem memoryLaws : Obligations.MemoryLaws := by
  refine ⟨fun m m' hm hm' h => Memory.eq_of_get hm hm' h, fun m pa w hm => ?_⟩
  refine ⟨Memory.wf_put _ _ _ (Memory.wf_put _ _ _ hm), Memory.readWord_writeWord_same m pa w hm, ?upper, ?lower,
    fun a h0 h1 => ?other⟩
  case upper => rw [Memory.get_writeWord pa w hm, if_pos rfl, upper_eq_ofNat]
  case lower => rw [Memory.get_writeWord pa w hm, if_neg (by omega), if_pos rfl, lower_eq_ofNat]
  case other => rw [Memory.get_writeWord pa w hm, if_neg h0, if_neg h1]

/-- Settles O46: the page step, the physical step where nothing protects, and the references of the CPU. -/
theorem addressTranslation : Obligations.AddressTranslation := by
  intro s a k g key la b half maps finds
  have hb : b = protectBit a := (protectBit_eq a).symm
  refine ⟨State.mapPage_of_no_mmu s a k g key la, fun m hm => ?maps, fun pa hpa hprotect hrom hparity => ?reached,
    fun hg => ?finds, fun m hm hgroups => ?refused⟩
  case maps =>
    show _ = _
    rw [hb]
    exact State.mapPage_of_mmu s a k g key la hm (State.pageReg_eq s k g la)
  case reached =>
    have hlt := State.mapPage_lt s a k g key la hpa
    have hindex : protectHalf a + pa / 16384 < 128 := by
      have hsize : physSize s.cfg ≤ 1048576 := by
        unfold physSize
        split <;> decide
      have hhalf : protectHalf a ≤ 64 := by
        unfold protectHalf
        split <;> decide
      omega
    have hblock : k = .write → s.blockProtected a pa = false := by
      intro hk
      rw [State.blockProtected_eq hindex]
      cases hm : s.cfg.hasMprot with
      | false => rfl
      | true =>
        cases he : s.ctl.mprotEn with
        | false => rfl
        | true =>
          have hbit : (s.ctl.mpr[protectHalf a + pa / 16384]'hindex).getLsbD (15 - pa / 1024 % 16) = false :=
            hprotect hk hm he hindex
          rw [hbit, Bool.and_false]
    rw [State.translate, hpa]
    dsimp only
    rw [State.checkPhysical_memory hblock hrom]
    have hok : ¬(s.cfg.hasParity = true ∧ s.ctl.badParity.contains pa = true) :=
      fun h => hparity h.1 (List.contains_iff_mem.1 h.2)
    rw [if_neg hok]
    cases physImplemented s.cfg pa <;> rfl
  case finds =>
    have found (k : RefKind) : finds (s.cpuRead k la) (s.translate .cpu k s.as (some s.ps) la) := by
      rw [State.cpuRead_eq hg]
      refine ⟨fun pa h => ?_, fun f h => ?_⟩ <;> rw [h]
    exact ⟨found .read, found .fetch⟩
  case refused =>
    have hg : groupImplemented s.cfg s.as = false := by
      rw [groupImplemented, hm]
      exact decide_eq_false (not_lt.2 hgroups)
    exact ⟨State.cpuRead_refused hg, State.cpuRead_refused hg, State.store_refused hg⟩

/-- Settles O47: each protection where those before it have no say. -/
theorem physicalProtection : Obligations.PhysicalProtection := by
  intro s k a d pa hpa
  refine ⟨fun hm he hspace => ?protect, fun size hs he hle => ?rom, fun hm hge => ?past,
    fun hp hbad himp hr hk => ?parity⟩
  case protect =>
    have hlt : pa < physSize s.cfg := by
      cases hmmu : s.cfg.mmu with
      | none =>
        rw [physSize, hmmu]
        exact hspace hmmu
      | some m =>
        rw [physSize, hmmu]
        exact hpa
    have hblock (agent : Agent) (h : protectHalf agent + pa / 16384 < 128)
        (hbit : (s.ctl.mpr[protectHalf agent + pa / 16384]'h).getLsbD (15 - pa / 1024 % 16) = true) :
        s.checkPhysical agent .write d pa = .error ⟨protectBit agent, some d⟩ := by
      refine State.checkPhysical_protected ?_
      rw [State.blockProtected_eq h, hbit, hm, he, decide_eq_true hlt]
      rfl
    have hcpu : protectHalf .cpu + pa / 16384 = pa / 16384 := Nat.zero_add _
    exact ⟨fun h hbit => hblock .cpu (hcpu.symm ▸ h) (by simpa only [hcpu] using hbit), hblock .dma⟩
  case rom =>
    have hover : s.romOverlay pa = true := by
      rw [State.romOverlay_eq hs, he, decide_eq_true hle]
      rfl
    exact ⟨fun hk => State.checkPhysical_rom hk hover, if_pos hover, fun w => ⟨rfl, rfl⟩⟩
  case past =>
    have hsize : physSize s.cfg = 65536 := by
      rw [physSize, hm]
      rfl
    have hout : decide (pa < physSize s.cfg) = false := decide_eq_false (by omega)
    have hblock : s.blockProtected a pa = false := by
      simp only [State.blockProtected, hout, Bool.and_false, Bool.false_and]
    have hrom : s.romOverlay pa = false := by
      cases hs : s.cfg.surom with
      | none => rw [State.romOverlay, hs]
      | some size =>
        have hlt := size.isLt
        rw [State.romOverlay_eq hs, decide_eq_false (by omega), Bool.and_false]
    rw [State.checkPhysical_memory (fun _ => hblock) (fun _ => hrom), physImplemented, hout]
    rfl
  case parity =>
    rw [State.checkPhysical_memory (fun h => absurd h hk) (fun _ => hr), himp]
    have hparity : s.cfg.hasParity = true ∧ s.ctl.badParity.contains pa = true := ⟨hp, List.contains_iff_mem.2 hbad⟩
    exact if_pos hparity

end Sys2Proof.Certificates
end

section
/-! The loads of the status word, the interrupt sequence reference by reference, the interrupt that is next, and the
statements StatusLoads, InterruptSequence, BranchToExecutive, InterruptPriority. -/

namespace Sys2Proof.Machine

/-! ### The status word (10_state.md R38, R45, R46) -/

/-- CS, the reserved bits and the rest make up a status word. -/
theorem statusWord_fields (v : Word) :
    (v.extractLsb' 12 4 ++ v.extractLsb' 8 4 ++ v.extractLsb' 0 8 : BitVec (4 + 4 + 8)) = v := by
  have htop : (v.extractLsb' 12 4 ++ v.extractLsb' 8 4 : BitVec (4 + 4)) = v.extractLsb' 8 8 :=
    BitVec.extractLsb'_append_extractLsb'_eq_extractLsb' rfl
  rw [htop]
  exact (BitVec.extractLsb'_append_extractLsb'_eq_extractLsb' rfl).trans BitVec.extractLsb'_eq_self

section
variable (a m : BitVec 4) (l : BitVec 8)

theorem append_and_reserved : (a ++ m ++ l : BitVec (4 + 4 + 8)) &&& 0x0F00#16 =
    (0#4 ++ m ++ 0#8 : BitVec (4 + 4 + 8)) := by
  have hmask : 0x0F00#16 = (0#4 ++ BitVec.allOnes 4 ++ 0#8 : BitVec (4 + 4 + 8)) := rfl
  rw [hmask]
  refine BitVec.and_append.trans ?_
  rw [BitVec.and_append, BitVec.and_zero, BitVec.and_allOnes, BitVec.and_zero]

theorem append_and_unreserved :
    (a ++ m ++ l : BitVec (4 + 4 + 8)) &&& 0xF0FF#16 = (a ++ 0#4 ++ l : BitVec (4 + 4 + 8)) := by
  have hmask : 0xF0FF#16 = (BitVec.allOnes 4 ++ 0#4 ++ BitVec.allOnes 8 : BitVec (4 + 4 + 8)) := rfl
  rw [hmask]
  refine BitVec.and_append.trans ?_
  rw [BitVec.and_append, BitVec.and_allOnes, BitVec.and_zero, BitVec.and_allOnes]

end

theorem reserved_eq_zero {v : Word} (h : v &&& 0x0F00#16 = 0#16) : v.extractLsb' 8 4 = 0#4 := by
  rw [← statusWord_fields v] at h
  have hfields := (append_and_reserved _ _ _).symm.trans h
  have hmid := congrArg (fun x : Word => x.extractLsb' 8 4) hfields
  have hget (m : BitVec 4) : (0#4 ++ m ++ 0#8 : BitVec (4 + 4 + 8)).extractLsb' 8 4 = m :=
    (BitVec.extractLsb'_append_eq_of_le (by decide)).trans BitVec.extractLsb'_append_eq_right
  exact (hget _).symm.trans hmid

/-- SW after a write: the word, but for reserved bits that are not zero. -/
theorem State.writeSw_eq (s : State) (v : Word) :
    ∃ (x : Word) (n : Nat), loadedSw v x ∧ s.writeSw v = { s with sw := x, freeCount := n } := by
  unfold State.writeSw
  by_cases h : v.extractLsb' 8 4 = 0#4
  · exact ⟨v, s.freeCount, ⟨fun _ => rfl, rfl⟩, if_pos h⟩
  · refine ⟨_, s.freeCount + 1, ⟨fun hz => absurd (reserved_eq_zero hz) h, ?_⟩, if_neg h⟩
    have hv := congrArg (· &&& 0xF0FF#16) (statusWord_fields v)
    exact (append_and_unreserved _ _ _).trans ((append_and_unreserved _ _ _).symm.trans hv)

/-- The loads of MK, SW and IC (43_jump_branch.md R405). -/
theorem State.loadStatus_eq (s : State) (w0 w1 w2 : Word) :
    ∃ (x : Word) (n : Nat), loadedSw w1 x ∧
      (asLegal s.cfg (asOf w1) = true →
        s.loadStatus (Ext.ofWords w0 w1 w2) = { s with mask := w0, sw := x, ic := w2, freeCount := n }) ∧
      (asLegal s.cfg (asOf w1) = false →
        ∃ ic : Word, s.loadStatus (Ext.ofWords w0 w1 w2) =
          { ({ s with mask := w0, sw := x }).afterFault 0x0010#16 .addressState none ic with freeCount := n + 1 }) := by
  obtain ⟨x, n, hx, hwrite⟩ := State.writeSw_eq { s with mask := w0 } w1
  have hload : s.loadStatus (Ext.ofWords w0 w1 w2) =
      if asLegal s.cfg (asOf w1) then { s with mask := w0, sw := x, ic := w2, freeCount := n }
      else ({ s with mask := w0, sw := x, freeCount := n } : State).raise addressStateFault := by
    rw [State.loadStatus, Ext.w0_ofWords, Ext.w1_ofWords, Ext.w2_ofWords, hwrite]
    rfl
  refine ⟨x, n, hx, fun h => ?_, fun h => ⟨({ s with mask := w0, sw := x, freeCount := n } : State).free 0, ?_⟩⟩
  · rw [hload, if_pos h]
  · rw [hload, if_neg (Bool.eq_false_iff.1 h), State.raise_eq_afterFault]
    rfl

section
variable {s : State} {rx : Reg} {addr p w0 w1 w2 : Word} (hps : s.ps = 0#4)
include hps

theorem execLst_eq_loadStatus (h0 : s.read (s.daLong addr rx) = .ok w0)
    (h1 : (s.turns 1).read (s.daLong addr rx + 1) = .ok w1) (h2 : (s.turns 2).read (s.daLong addr rx + 2) = .ok w2) :
    execLst rx addr s = .next ((s.turns 3).loadStatus (Ext.ofWords w0 w1 w2)) := by
  rw [execLst, if_neg (not_not.2 hps)]
  exact State.readThen3_turns (n := 0) (k := fun t s => .next (s.loadStatus t)) h0 h1 h2

theorem execLsti_eq_loadStatus (hp : s.read (s.daLong addr rx) = .ok p) (h0 : (s.turns 1).read p = .ok w0)
    (h1 : (s.turns 2).read (p + 1) = .ok w1) (h2 : (s.turns 3).read (p + 2) = .ok w2) :
    execLsti rx addr s = .next ((s.turns 4).loadStatus (Ext.ofWords w0 w1 w2)) := by
  rw [execLsti, if_neg (not_not.2 hps), State.pointerThen, State.readThen_ok hp]
  exact State.readThen3_turns (n := 1) (k := fun t s => .next (s.loadStatus t)) h0 h1 h2

end

/-! ### The interrupt sequence (60_exceptions.md R816) -/

theorem serviceAddress_eq (n : BitVec 4) : serviceAddress n = BitVec.ofNat 16 (0x21 + 2 * n.toNat) := by
  revert n
  decide

theorem linkageAddress_eq (n : BitVec 4) : linkageAddress n = BitVec.ofNat 16 (0x20 + 2 * n.toNat) := by
  revert n
  decide

theorem servedRequests_eq (held : Bool) {begins : Bool} (shown : BitVec 7) (requests : List (BitVec 7)) {p : Prop}
    [Decidable p] (h : begins = true ↔ p) :
    servedRequests held begins shown requests = if p ∧ held = false then requests.erase shown else requests := by
  refine if_congr ?_ rfl rfl
  rw [Bool.and_eq_true, Bool.not_eq_true', h]

/-- What an input/output interrupt's sequence does to IOIC, as it begins. -/
theorem State.holdIoic_eq (s : State) (n : BitVec 4) :
    s.holdIoic n = { s with dev := { s.dev with
      ioicHold1 := s.dev.ioicHold1 || (s.cfg.hasIoic && n == s.cfg.intIo1)
      ioicHold2 := s.dev.ioicHold2 || (s.cfg.hasIoic && n == s.cfg.intIo2)
      ioicRequests1 := if s.cfg.hasIoic ∧ n = s.cfg.intIo1 ∧ s.dev.ioicHold1 = false
        then s.dev.ioicRequests1.erase s.dev.ioic1 else s.dev.ioicRequests1
      ioicRequests2 := if s.cfg.hasIoic ∧ n = s.cfg.intIo2 ∧ s.dev.ioicHold2 = false
        then s.dev.ioicRequests2.erase s.dev.ioic2 else s.dev.ioicRequests2 } } := by
  have hbegins (i : BitVec 4) : (s.cfg.hasIoic && n == i) = true ↔ s.cfg.hasIoic = true ∧ n = i := by
    rw [Bool.and_eq_true, beq_iff_eq]
  simp only [State.holdIoic, servedRequests_eq _ _ _ (hbegins _), and_assoc]

theorem State.vectorThen_ok {s : State} {la v : Word} {k : Word → State → Stored} (h : s.vectorRead la = .ok v) :
    s.vectorThen la k = k v s.turn := by
  rw [State.vectorThen, h]

section
variable {s : State} {n e : BitVec 4} {svp mk sw ic lp : Word}

/-- The five references of a sequence, one after the other. -/
theorem State.readVector_ok {k : Vectored → State → Stored} (h0 : s.vectorRead (serviceAddress n) = .ok svp)
    (h1 : (s.turns 1).vectorRead svp = .ok mk) (h2 : (s.turns 2).vectorRead (svp + 1) = .ok sw)
    (h3 : (s.turns 3).vectorRead (svp + 2 + BitVec.ofNat 16 e.toNat) = .ok ic)
    (h4 : (s.turns 4).vectorRead (linkageAddress n) = .ok lp) :
    s.readVector n e k = k ⟨mk, sw, ic, lp⟩ (s.turns 5) := by
  have he : e.zeroExtend 16 = BitVec.ofNat 16 e.toNat := (BitVec.ofNat_toNat 16 e).symm
  rw [← he] at h3
  rw [State.readVector, State.vectorThen_ok h0]
  refine (State.vectorThen_ok h1).trans ?_
  refine (State.vectorThen_ok h2).trans ?_
  refine (State.vectorThen_ok h3).trans ?_
  exact State.vectorThen_ok h4

theorem DmaOnly.mask {s t : State} (h : DmaOnly s t) : t.mask = s.mask := by
  unfold DmaOnly at h
  rw [h]

theorem DmaOnly.cfg {s t : State} (h : DmaOnly s t) : t.cfg = s.cfg := by
  unfold DmaOnly at h
  rw [h]

theorem DmaOnly.ctl {s t : State} (h : DmaOnly s t) : t.ctl = s.ctl := by
  unfold DmaOnly at h
  rw [h]

/-- Words that are all answered are stored, each in its turn. -/
theorem State.storeWords_storedInTurn {g : BitVec 4} {key : Option (BitVec 4)} {ws : List (Word × Word)}
    {pas : List Nat}
    (hw : s.mem.wf = true) (hall : ws.map (fun w => s.translate .cpu .write g key w.1) = pas.map Except.ok) :
    ∃ t, StoredInTurn s (pas.zip (ws.map Prod.snd)) t ∧ s.storeWords g key ws = .done t := by
  refine ⟨_, State.storePicked_storedInTurn (n := 0) hw hall, ?_⟩
  rw [State.storeWords, State.firstFault_none hall]

/-- The stores of a sequence and what it loads, once its vector is read in the state `u`. -/
def State.linkAndLoad (u : State) (n : BitVec 4) (old : Word) (v : Vectored) : Stored :=
  if asLegal u.cfg (asOf v.sw) then
    match u.storeWords (asOf v.sw) none [(v.linkage, u.mask), (v.linkage + 1, u.sw), (v.linkage + 2, old)] with
    | .faulted f t => .faulted f t
    | .done t =>
      .done ({ t with
        mask := v.mask
        pi := t.pi &&& ~~~bitMask n
        ien := false
        enblPending := false }.writeSw v.sw |>.setIc v.ic)
  else .faulted addressStateFault u

theorem State.enterInterrupt_eq (s : State) (n e : BitVec 4) (old : Word) :
    s.enterInterrupt n e old = (s.holdIoic n).readVector n e fun v u => u.linkAndLoad n old v := rfl

theorem State.linkAndLoad_bad {u : State} {old : Word} (h : asLegal u.cfg (asOf sw) = false) :
    u.linkAndLoad n old ⟨mk, sw, ic, lp⟩ = .faulted addressStateFault u := if_neg (Bool.eq_false_iff.1 h)

theorem State.linkAndLoad_ok {u : State} {old : Word} {q0 q1 q2 : Nat} (hw : u.mem.wf = true)
    (h : asLegal u.cfg (asOf sw) = true) (t0 : u.translate .cpu .write (asOf sw) none lp = .ok q0)
    (t1 : u.translate .cpu .write (asOf sw) none (lp + 1) = .ok q1)
    (t2 : u.translate .cpu .write (asOf sw) none (lp + 2) = .ok q2) :
    ∃ (t : State) (x : Word) (c : Nat), loadedSw sw x ∧
      StoredInTurn u [(q0, u.mask), (q1, u.sw), (q2, old)] t ∧
      u.linkAndLoad n old ⟨mk, sw, ic, lp⟩ = .done { t with
        mask := mk, sw := x, ic := ic, ien := false, enblPending := false
        pi := t.pi &&& ~~~BitVec.twoPow 16 (15 - n.toNat), freeCount := c } := by
  have hall : [(lp, u.mask), (lp + 1, u.sw), (lp + 2, old)].map
      (fun w => u.translate .cpu .write (asOf sw) none w.1) = [q0, q1, q2].map Except.ok := by
    simp only [List.map_cons, List.map_nil, t0, t1, t2]
  obtain ⟨t, hstored, hdone⟩ := State.storeWords_storedInTurn hw hall
  obtain ⟨x, c, hx, hwrite⟩ := State.writeSw_eq
    { t with mask := mk, pi := t.pi &&& ~~~bitMask n, ien := false, enblPending := false } sw
  refine ⟨t, x, c, hx, hstored, ?_⟩
  rw [State.linkAndLoad, if_pos h, hdone]
  dsimp only
  rw [hwrite, bitMask_eq_twoPow]
  rfl

end

section
variable {s : State} {n e : BitVec 4} {old svp mk sw ic lp : Word} {h : State} (hh : h = s.holdIoic n)
include hh

/-- Beginning the sequence of an input/output interrupt, and its references, touch neither memory's layout nor MK,
SW. -/
theorem holdIoic_turns_dmaOnly : (h.turns 5).cfg = s.cfg ∧ (h.turns 5).ctl = s.ctl ∧ (h.turns 5).mask = s.mask ∧
    (h.turns 5).sw = s.sw := by
  subst hh
  have hturns := DmaOnly.turns 5 (s.holdIoic n)
  exact ⟨hturns.cfg, hturns.ctl, hturns.mask, hturns.sw⟩

theorem holdIoic_wf (hw : s.mem.wf = true) : h.mem.wf = true := by
  subst hh
  exact hw

variable (h0 : h.vectorRead (serviceAddress n) = .ok svp) (h1 : (h.turns 1).vectorRead svp = .ok mk)
  (h2 : (h.turns 2).vectorRead (svp + 1) = .ok sw)
  (h3 : (h.turns 3).vectorRead (svp + 2 + BitVec.ofNat 16 e.toNat) = .ok ic)
  (h4 : (h.turns 4).vectorRead (linkageAddress n) = .ok lp)
include h0 h1 h2 h3 h4

theorem enterInterrupt_eq_linkAndLoad :
    s.enterInterrupt n e old = (h.turns 5).linkAndLoad n old ⟨mk, sw, ic, lp⟩ := by
  rw [State.enterInterrupt_eq, ← hh]
  exact State.readVector_ok h0 h1 h2 h3 h4

theorem enterInterrupt_bad (hbad : asLegal s.cfg (asOf sw) = false) :
    s.enterInterrupt n e old = .faulted addressStateFault (h.turns 5) := by
  obtain ⟨hcfg, -, -, -⟩ := holdIoic_turns_dmaOnly hh
  rw [enterInterrupt_eq_linkAndLoad hh h0 h1 h2 h3 h4]
  exact State.linkAndLoad_bad (by rw [hcfg, hbad])

/-- What a sequence whose references are all answered leaves. -/
theorem enterInterrupt_ok {q0 q1 q2 : Nat} (hw : s.mem.wf = true) (hlegal : asLegal s.cfg (asOf sw) = true)
    (t0 : s.translate .cpu .write (asOf sw) none lp = .ok q0)
    (t1 : s.translate .cpu .write (asOf sw) none (lp + 1) = .ok q1)
    (t2 : s.translate .cpu .write (asOf sw) none (lp + 2) = .ok q2) :
    ∃ (t : State) (x : Word) (c : Nat), loadedSw sw x ∧
      StoredInTurn (h.turns 5) [(q0, s.mask), (q1, s.sw), (q2, old)] t ∧
      s.enterInterrupt n e old = .done { t with
        mask := mk, sw := x, ic := ic, ien := false, enblPending := false
        pi := t.pi &&& ~~~BitVec.twoPow 16 (15 - n.toNat), freeCount := c } := by
  obtain ⟨hcfg, hctl, hmask, hsw⟩ := holdIoic_turns_dmaOnly hh
  have htranslate (la : Word) := State.translate_congr hcfg hctl .cpu .write (asOf sw) none la
  have hlink := State.linkAndLoad_ok (n := n) (mk := mk) (ic := ic) (old := old)
    (State.turns_wf 5 (holdIoic_wf hh hw)) ((congrArg (asLegal · (asOf sw)) hcfg).trans hlegal)
    ((htranslate _).trans t0) ((htranslate _).trans t1) ((htranslate _).trans t2)
  rwa [hmask, hsw, ← enterInterrupt_eq_linkAndLoad hh h0 h1 h2 h3 h4] at hlink

end

/-- BEX whose sequence is done (43_jump_branch.md R408). -/
theorem exec_bex_done {s t : State} {e : BitVec 4} (h : s.enterInterrupt intExecutive e (s.ic + 1) = .done t) :
    exec (.bex e) s = .next t := by
  have hexec : exec (.bex e) s = execBex e s := rfl
  rw [hexec, execBex, h]

/-! ### Which interrupt is next (60_exceptions.md R815, R824) -/

theorem getLsbD_foldl_or (i : Nat) :
    ∀ (l : List Word) (a : Word), (l.foldl (· ||| ·) a).getLsbD i = true ↔ a.getLsbD i = true ∨ ∃ h ∈ l,
      h.getLsbD i = true
  | [], a => by simp
  | h :: l, a => by
    rw [List.foldl_cons, getLsbD_foldl_or i l, BitVec.getLsbD_or, Bool.or_eq_true, List.exists_mem_cons_iff, or_assoc]

/-- A PI bit is held back where one of the delays still running holds it. -/
theorem getLsbD_heldBits_eq_false (l : List Word) (i : Nat) :
    (heldBits l).getLsbD i = false ↔ ∀ h ∈ l, h.getLsbD i = false := by
  have h := not_congr (getLsbD_foldl_or i l 0#16)
  simpa [heldBits] using h

/-- The interrupts in their order of priority are their numbers. -/
theorem interruptNumbers_getElem {i : Nat} (h : i < interruptNumbers.length) :
    interruptNumbers[i] = BitVec.ofNat 4 i := by
  revert i
  decide

theorem interruptNumbers_find_some (p : BitVec 4 → Bool) (n : BitVec 4) :
    interruptNumbers.find? p = some n ↔ p n = true ∧ ∀ k, k < n.toNat → p (BitVec.ofNat 4 k) = false := by
  rw [List.find?_eq_some_iff_getElem]
  refine and_congr_right fun _ => ⟨?_, fun h => ?_⟩
  · rintro ⟨i, hi, heq, hbefore⟩ k hk
    have hin : i = n.toNat := by
      rw [← heq, interruptNumbers_getElem, BitVec.toNat_ofNat, Nat.mod_eq_of_lt (show i < 16 from hi)]
    have hk' := hbefore k (hin ▸ hk)
    rw [interruptNumbers_getElem] at hk'
    simpa using hk'
  · have hlt : n.toNat < interruptNumbers.length := n.isLt
    refine ⟨n.toNat, hlt, ?_, fun k hk => ?_⟩
    · rw [interruptNumbers_getElem, BitVec.ofNat_toNat, BitVec.setWidth_eq]
    · rw [interruptNumbers_getElem, h k hk]
      rfl

theorem interruptNumbers_find_none (p : BitVec 4 → Bool) :
    interruptNumbers.find? p = none ↔ ∀ k, k < 16 → p (BitVec.ofNat 4 k) = false := by
  rw [List.find?_eq_none]
  refine ⟨fun h k hk => ?_, fun h x hx => ?_⟩
  · have hlt : k < interruptNumbers.length := hk
    have hmem := List.getElem_mem hlt
    rw [interruptNumbers_getElem] at hmem
    exact Bool.eq_false_iff.2 (h _ hmem)
  · have hx' := h x.toNat x.isLt
    rw [BitVec.ofNat_toNat, BitVec.setWidth_eq] at hx'
    exact Bool.eq_false_iff.1 hx'

/-- When an interrupt would be taken: pending, held back by no SPI, and allowed. -/
theorem State.candidate_iff (s : State) {k : Nat} (hk : k < 16) :
    s.candidate (BitVec.ofNat 4 k) = true ↔
      s.pi.getLsbD (15 - k) = true ∧ (∀ h ∈ s.spiHold, h.getLsbD (15 - k) = false) ∧
        (k = 0 ∨ k = 5 ∨ (s.mask.getLsbD (15 - k) = true ∧ (k = 1 ∨ s.ien = true))) := by
  have hnat : (BitVec.ofNat 4 k).toNat = k := Nat.mod_eq_of_lt hk
  have hbit (v : Word) : stdBit v (BitVec.ofNat 4 k) = v.getLsbD (15 - k) := by rw [stdBit, hnat]
  have hnum (j : Nat) (hj : j < 16) : (BitVec.ofNat 4 k == BitVec.ofNat 4 j) = true ↔ k = j := by
    rw [beq_iff_eq, ← BitVec.toNat_inj, hnat, BitVec.toNat_ofNat, Nat.mod_eq_of_lt hj]
  simp only [State.candidate, State.allowed, hbit, Bool.and_eq_true, Bool.or_eq_true, Bool.not_eq_true',
    getLsbD_heldBits_eq_false, and_assoc, or_assoc]
  rw [← hnum 0 (by decide), ← hnum 5 (by decide), ← hnum 1 (by decide)]

end Sys2Proof.Machine

/-! ### The statements -/

namespace Sys2Proof.Certificates

open Sys2Proof.Machine

/-- Settles O48: the words are read in turn, then `State.loadStatus_eq`. -/
theorem statusLoads : Obligations.StatusLoads := by
  intro s rx addr p w0 w1 w2 hps loads
  have hloads (n : Nat) : loads (s.turns n) (.next ((s.turns n).loadStatus (Ext.ofWords w0 w1 w2))) := by
    obtain ⟨x, c, hx, hok, hbad⟩ := (s.turns n).loadStatus_eq w0 w1 w2
    refine ⟨x, c, hx, fun h => congrArg Host.Outcome.next (hok h), fun h => ?_⟩
    obtain ⟨ic, hic⟩ := hbad h
    exact ⟨ic, congrArg Host.Outcome.next hic⟩
  refine ⟨fun h0 h1 h2 => ?_, fun hp h0 h1 h2 => ?_⟩
  · have hexec : exec (.lst rx addr) s = .next ((s.turns 3).loadStatus (Ext.ofWords w0 w1 w2)) :=
      execLst_eq_loadStatus hps h0 h1 h2
    rw [hexec]
    exact hloads 3
  · have hexec : exec (.lsti rx addr) s = .next ((s.turns 4).loadStatus (Ext.ofWords w0 w1 w2)) :=
      execLsti_eq_loadStatus hps hp h0 h1 h2
    rw [hexec]
    exact hloads 4

/-- Settles O49: `enterInterrupt_ok` and `enterInterrupt_bad`, with the vector's addresses as the statement writes
them. -/
theorem interruptSequence : Obligations.InterruptSequence := by
  unfold Obligations.InterruptSequence
  intro s n e old svp mk sw ic lp q0 q1 q2 hw
  rw [← serviceAddress_eq, ← linkageAddress_eq, ← State.holdIoic_eq]
  intro h h0 h1 h2 h3 h4
  exact ⟨fun hlegal t0 t1 t2 => enterInterrupt_ok rfl h0 h1 h2 h3 h4 hw hlegal t0 t1 t2,
    fun hbad => enterInterrupt_bad rfl h0 h1 h2 h3 h4 hbad⟩

/-- Settles O50: the sequence of interrupt 5, `enterInterrupt_ok`. -/
theorem branchToExecutive : Obligations.BranchToExecutive := by
  unfold Obligations.BranchToExecutive
  intro s e svp mk sw ic lp q0 q1 q2 hw
  rw [← State.holdIoic_eq]
  intro h h0 h1 h2 h3 h4 hlegal t0 t1 t2
  obtain ⟨t, x, c, hx, hstored, henter⟩ :=
    enterInterrupt_ok (n := 5#4) (old := s.ic + 1) rfl h0 h1 h2 h3 h4 hw hlegal t0 t1 t2
  refine ⟨x, c, hx, t, hstored, ?_⟩
  have hbit : ~~~BitVec.twoPow 16 (15 - (5#4).toNat) = 0xFBFF#16 := rfl
  rw [hbit] at henter
  exact exec_bex_done henter

/-- Settles O52: the lowest number that `State.candidate_iff` holds of. -/
theorem interruptPriority : Obligations.InterruptPriority := by
  intro s n takes
  have htakes {k : Nat} (hk : k < 16) : s.candidate (BitVec.ofNat 4 k) = true ↔ takes k := s.candidate_iff hk
  have hnot {k : Nat} (hk : k < 16) : s.candidate (BitVec.ofNat 4 k) = false ↔ ¬takes k := by
    rw [← htakes hk, Bool.not_eq_true]
  have hself : s.candidate n = true ↔ takes n.toNat := by
    have h := htakes n.isLt
    rwa [BitVec.ofNat_toNat, BitVec.setWidth_eq] at h
  refine ⟨?_, ?_⟩
  · refine (interruptNumbers_find_some _ _).trans (and_congr hself ?_)
    exact forall₂_congr fun k hk => hnot (hk.trans n.isLt)
  · refine (interruptNumbers_find_none _).trans ?_
    exact forall₂_congr fun k hk => hnot hk

end Sys2Proof.Certificates
end

section
/-! A BEX and the LST that returns from it, on a machine where every reference is answered with the word in memory, and
the statement ExecutiveCallReturns. -/

namespace Sys2Proof.Machine

/-! ### Machines without protection -/

/-- Nothing protects, overlays or spoils a word: 16-bit physical addresses, all of them implemented. -/
structure Unprotected (c : Config) : Prop where
  mmu : c.mmu = none
  mprot : c.hasMprot = false
  rom : c.surom = none
  parity : c.hasParity = false
  implemented : ∀ a, a < 65536 → physImplemented c a = true

theorem Unprotected.asLegal_iff {c : Config} (h : Unprotected c) (as : BitVec 4) : asLegal c as = true ↔ as = 0#4 := by
  rw [asLegal, h.mmu, beq_iff_eq]

theorem Unprotected.groupImplemented {c : Config} (h : Unprotected c) (as : BitVec 4) :
    groupImplemented c as = true := by
  rw [Machine.groupImplemented, h.mmu]

section
variable {s : State} (hc : Unprotected s.cfg)
include hc

theorem State.romOverlay_unprotected (pa : Nat) : s.romOverlay pa = false := by
  rw [State.romOverlay, hc.rom]

theorem State.physRead_unprotected (pa : Nat) : s.physRead pa = Memory.readWord s.mem pa := by
  rw [State.physRead, State.romOverlay_unprotected hc]
  exact if_neg Bool.false_ne_true

theorem State.translate_unprotected (a : Agent) (k : RefKind) (g : BitVec 4) (key : Option (BitVec 4)) (la : Word) :
    s.translate a k g key la = .ok la.toNat := by
  have hmap : s.mapPage a k g key la = .ok la.toNat := by
    rw [State.mapPage, hc.mmu]
  have hprotect : s.blockProtected a la.toNat = false := by
    unfold State.blockProtected
    rw [hc.mprot]
    rfl
  have himpl := hc.implemented la.toNat la.isLt
  have hparity : ¬(s.cfg.hasParity = true ∧ s.ctl.badParity.contains la.toNat = true) := fun h => by
    rw [hc.parity] at h
    exact Bool.false_ne_true h.1
  rw [State.translate, hmap]
  dsimp only
  rw [State.checkPhysical_memory (fun _ => hprotect) (fun _ => State.romOverlay_unprotected hc _), himpl,
    if_neg hparity]
  rfl

end

/-! ### No DMA comes in between -/

/-- No DMA reference can touch memory before the CPU's references. -/
def State.Quiet (s : State) : Prop := s.cfg.hasDma = false ∨ s.dev.dmaEn = false ∨ s.dma.slots = []

theorem State.dmaReference_disabled {s : State} (h : s.cfg.hasDma = false ∨ s.dev.dmaEn = false) (r : DmaRef) :
    s.dmaReference r = s := by
  refine if_neg fun hen => ?_
  rw [Bool.and_eq_true, Bool.and_eq_true] at hen
  obtain ⟨⟨hhas, hdma⟩, -⟩ := hen
  obtain h | h := h
  · exact Bool.false_ne_true (h.symm.trans hhas)
  · exact Bool.false_ne_true (h.symm.trans hdma)

theorem State.dmaReferences_disabled {s : State} (h : s.cfg.hasDma = false ∨ s.dev.dmaEn = false) :
    ∀ refs : List DmaRef, s.dmaReferences refs = s
  | [] => rfl
  | r :: rest => by
    rw [State.dmaReferences, State.dmaReference_disabled h, State.dmaReferences_disabled h rest]

/-- A turn of a quiet machine takes a slot of the DMA schedule and nothing else. -/
theorem State.Quiet.turn {s : State} (h : s.Quiet) : ∃ d, s.turn = { s with dma := d } ∧ s.turn.Quiet := by
  by_cases hslots : s.dma.slots = []
  · rw [State.turn_of_no_slots hslots]
    exact ⟨s.dma, rfl, h⟩
  · obtain ⟨refs, rest, hcons⟩ := List.exists_cons_of_ne_nil hslots
    have hoff : s.cfg.hasDma = false ∨ s.dev.dmaEn = false := by
      obtain h | h | h := h
      · exact .inl h
      · exact .inr h
      · exact absurd h hslots
    have hturn : s.turn = { s with dma := { s.dma with slots := rest } } := by
      rw [State.turn, hcons]
      exact State.dmaReferences_disabled (s := { s with dma := { s.dma with slots := rest } }) hoff refs
    refine ⟨_, hturn, ?_⟩
    rw [hturn]
    exact hoff.elim .inl fun h => .inr (.inl h)

theorem State.Quiet.turns : ∀ (n : Nat) {s : State}, s.Quiet → ∃ d, s.turns n = { s with dma := d } ∧ (s.turns n).Quiet
  | 0, s, h => ⟨s.dma, rfl, h⟩
  | n + 1, s, h => by
    obtain ⟨d, hturn, hquiet⟩ := h.turn
    obtain ⟨e, hturns, hend⟩ := hquiet.turns n
    refine ⟨e, ?_, hend⟩
    rw [State.turns_succ, hturns, hturn]

theorem State.Quiet.turns_mem {s : State} (h : s.Quiet) (n : Nat) : (s.turns n).mem = s.mem := by
  obtain ⟨d, hturns, -⟩ := h.turns n
  rw [hturns]

theorem State.Quiet.turns_turn_mem {s : State} (h : s.Quiet) (n : Nat) : (s.turns n).turn.mem = s.mem := by
  obtain ⟨d, -, hquiet⟩ := h.turns n
  rw [← h.turns_mem n]
  exact hquiet.turns_mem 1

section
variable {s : State} (hc : Unprotected s.cfg) (hq : s.Quiet)
include hc hq

theorem State.vectorRead_unprotected (n : Nat) (la : Word) :
    (s.turns n).vectorRead la = .ok (Memory.readWord s.mem la.toNat) := by
  have hcfg : Unprotected (s.turns n).turn.cfg := by
    rwa [State.turn_cfg, State.turns_cfg]
  rw [State.vectorRead]
  rw [State.translate_unprotected hcfg]
  exact congrArg Except.ok ((State.physRead_unprotected hcfg _).trans (by rw [hq.turns_turn_mem n]))

theorem State.read_unprotected (n : Nat) (la : Word) : (s.turns n).read la = .ok (Memory.readWord s.mem la.toNat) := by
  have hcfg : Unprotected (s.turns n).turn.cfg := by
    rwa [State.turn_cfg, State.turns_cfg]
  rw [State.read, State.cpuRead]
  rw [if_pos (hcfg.groupImplemented _), State.translate_unprotected hcfg]
  exact congrArg Except.ok ((State.physRead_unprotected hcfg _).trans (by rw [hq.turns_turn_mem n]))

end

/-! ### Words stored in turn -/

/-- A written word makes memory that of `Memory.writeWord`. -/
theorem Written.mem_eq {s t : State} {pa : Nat} {w : Word} (hw : s.mem.wf = true) (h : Written s pa w t) :
    t = { s with mem := s.mem.writeWord pa w } := by
  obtain ⟨m, rfl, hwf, hget⟩ := h
  have hm : m = s.mem.writeWord pa w :=
    Memory.eq_of_get hwf (Memory.wf_put _ _ _ (Memory.wf_put _ _ _ hw)) fun a => by
      rw [hget, Memory.get_writeWord pa w hw]
  rw [hm]

/-- What quiet stores of words leave: memory with each word written. -/
theorem StoredInTurn.quiet : ∀ {ws : List (Nat × Word)} {s t : State}, s.mem.wf = true → s.Quiet → StoredInTurn s ws t →
    ∃ d, t = { s with dma := d, mem := ws.foldl (fun m w => Memory.writeWord m w.1 w.2) s.mem } ∧ t.Quiet
  | [], s, t, _, hq, h => by
    cases h
    exact ⟨s.dma, rfl, hq⟩
  | (pa, w) :: rest, s, t, hw, hq, h => by
    obtain ⟨u, hu, hrest⟩ := h
    obtain ⟨d, hturn, hquiet⟩ := hq.turn
    have hu' := hu.mem_eq (State.turn_wf hw)
    have hmem : s.turn.mem = s.mem := by rw [hturn]
    have huwf : u.mem.wf = true := by
      obtain ⟨m, rfl, hwf, -⟩ := hu
      exact hwf
    have huq : u.Quiet := by
      rw [hu']
      exact hquiet
    obtain ⟨e, ht, htq⟩ := StoredInTurn.quiet huwf huq hrest
    refine ⟨e, ?_, htq⟩
    rw [ht, hu', hmem, hturn]
    rfl

/-- Three words stored at consecutive addresses read back. -/
theorem readWord_writeWord_three (m : Memory) (hw : m.wf = true) (la v0 v1 v2 : Word) :
    let m' := ((m.writeWord la.toNat v0).writeWord (la + 1).toNat v1).writeWord (la + 2).toNat v2
    m'.readWord la.toNat = v0 ∧ m'.readWord (la + 1).toNat = v1 ∧ m'.readWord (la + 2).toNat = v2 := by
  have hwf (m : Memory) (h : m.wf = true) (pa : Nat) (w : Word) : (m.writeWord pa w).wf = true :=
    Memory.wf_put _ _ _ (Memory.wf_put _ _ _ h)
  have h01 : la.toNat ≠ (la + 1).toNat := by bv_omega
  have h02 : la.toNat ≠ (la + 2).toNat := by bv_omega
  have h12 : (la + 1).toNat ≠ (la + 2).toNat := by bv_omega
  refine ⟨?_, ?_, ?_⟩
  · rw [Memory.readWord_writeWord_other _ _ h02, Memory.readWord_writeWord_other _ _ h01,
      Memory.readWord_writeWord_same _ _ _ hw]
  · rw [Memory.readWord_writeWord_other _ _ h12, Memory.readWord_writeWord_same _ _ _ (hwf _ hw _ _)]
  · rw [Memory.readWord_writeWord_same _ _ _ (hwf _ (hwf _ hw _ _) _ _)]

/-! ### There and back -/

/-- A mask within one that finds nothing finds nothing. -/
theorem and_eq_zero_of_mask {v m m' : Word} (h : v &&& m = 0#16) (hm : m &&& m' = m') : v &&& m' = 0#16 := by
  rw [← hm, ← BitVec.and_assoc, h, BitVec.zero_and]

theorem loadedSw.eq {v x : Word} (h : loadedSw v x) (hv : v &&& 0x0F0F#16 = 0#16) : x = v :=
  h.1 (and_eq_zero_of_mask hv rfl)

theorem asOf_eq_zero {v : Word} (h : v &&& 0x0F0F#16 = 0#16) : asOf v = 0#4 := by
  have hlow := congrArg (fun x : Word => x.extractLsb' 0 4) h
  have hmask : (0x0F0F#16).extractLsb' 0 4 = BitVec.allOnes 4 := rfl
  rw [BitVec.extractLsb'_and, hmask, BitVec.and_allOnes] at hlow
  exact hlow

theorem ps_eq_zero {s : State} (h : s.sw &&& 0x0FFF#16 = 0#16) : s.ps = 0#4 := by
  have hmid := congrArg (fun x : Word => x.extractLsb' 4 4) h
  have hmask : (0x0FFF#16).extractLsb' 4 4 = BitVec.allOnes 4 := rfl
  rw [BitVec.extractLsb'_and, hmask, BitVec.and_allOnes] at hmid
  exact hmid

section
variable {s : State} (hc : Unprotected s.cfg) (hq : s.Quiet) (hw : s.mem.wf = true)
include hc hq hw

/-- What a BEX leaves on such a machine: its three words at the linkage pointer, then the new MK, SW and IC. -/
theorem exec_bex_unprotected (e : BitVec 4) {svp lp sw : Word} (hsvp : s.vectorRead 0x002B = .ok svp)
    (hlp : s.vectorRead 0x002A = .ok lp) (hsw : s.vectorRead (svp + 1) = .ok sw) (hlow : sw &&& 0x0F0F#16 = 0#16) :
    ∃ (t : State) (mk ic : Word) (dev : Devices) (d : DmaTraffic), exec (.bex e) s = .next t ∧ t.Quiet ∧
      t = { s with
        dma := d, dev := dev, mask := mk, sw := sw, ic := ic, ien := false, enblPending := false,
          pi := s.pi &&& 0xFBFF#16
        freeCount := t.freeCount
        mem := ((s.mem.writeWord lp.toNat s.mask).writeWord (lp + 1).toNat s.sw).writeWord (lp + 2).toNat
          (s.ic + 1) } := by
  obtain ⟨h, hh⟩ : ∃ h, h = s.holdIoic 5#4 := ⟨_, rfl⟩
  have hdev : ∃ dev, h = { s with dev := dev } ∧ dev.dmaEn = s.dev.dmaEn := ⟨_, hh, rfl⟩
  obtain ⟨dev, hheq, hen⟩ := hdev
  have hhc : Unprotected h.cfg := by rwa [hheq]
  have hhq : h.Quiet := by
    rw [hheq]
    exact hq.imp_right (Or.imp_left fun hoff => hen.trans hoff)
  have hmem : h.mem = s.mem := by rw [hheq]
  have hread (n : Nat) (la : Word) : (h.turns n).vectorRead la = s.vectorRead la := by
    rw [State.vectorRead_unprotected hhc hhq, hmem]
    exact (State.vectorRead_unprotected hc hq 0 la).symm
  have hword (n : Nat) (la : Word) : (h.turns n).vectorRead la = .ok (Memory.readWord s.mem la.toNat) := by
    rw [State.vectorRead_unprotected hhc hhq, hmem]
  have htranslate (la : Word) := State.translate_unprotected hc .cpu .write (asOf sw) none la
  obtain ⟨t, x, c, hx, hstored, henter⟩ := enterInterrupt_ok (n := 5#4) (e := e) (old := s.ic + 1) hh
    ((hread 0 _).trans hsvp) (hword 1 svp) ((hread 2 _).trans hsw) (hword 3 _) ((hread 4 _).trans hlp) hw
    ((hc.asLegal_iff _).2 (asOf_eq_zero hlow)) (htranslate lp) (htranslate (lp + 1)) (htranslate (lp + 2))
  obtain ⟨d, hturns, hquiet⟩ := hhq.turns 5
  obtain ⟨d', ht, htq⟩ := hstored.quiet (State.turns_wf 5 (holdIoic_wf hh hw)) hquiet
  refine ⟨_, Memory.readWord s.mem svp.toNat, Memory.readWord s.mem (svp + 2 + BitVec.ofNat 16 e.toNat).toNat, dev, d',
    exec_bex_done henter, htq, ?_⟩
  rw [ht, hturns, hx.eq hlow, hheq]
  rfl

end

end Sys2Proof.Machine

/-! ### The statement -/

namespace Sys2Proof.Certificates

open Sys2Proof.Machine

/-- Settles O51: the BEX is `exec_bex_unprotected`; the LST reads the three words back (`readWord_writeWord_three`). -/
theorem executiveCallReturns : Obligations.ExecutiveCallReturns := by
  intro s t e lp sw hw hmmu hmprot hrom hparity _ himpl hq hlp hsw hlow hreserved hbex
  have hc : Unprotected s.cfg := ⟨hmmu, hmprot, hrom, hparity, himpl⟩
  have hquiet : s.Quiet := hq
  have hsvp := State.vectorRead_unprotected hc hquiet 0 0x002B
  obtain ⟨t', mk, ic, dev, d, hexec, htq, ht⟩ := exec_bex_unprotected hc hquiet hw e hsvp hlp (hsw _ hsvp)
    (and_eq_zero_of_mask hlow rfl)
  obtain rfl : t = t' := Host.Outcome.next.inj (hbex.symm.trans hexec)
  have htsw : t.sw = sw := by rw [ht]
  have htcfg : t.cfg = s.cfg := by rw [ht]
  have htc : Unprotected t.cfg := htcfg ▸ hc
  have hps : t.ps = 0#4 := ps_eq_zero (htsw ▸ hlow)
  obtain ⟨r0, r1, r2⟩ := readWord_writeWord_three s.mem hw lp s.mask s.sw (s.ic + 1)
  have hmem : t.mem = ((s.mem.writeWord lp.toNat s.mask).writeWord (lp + 1).toNat s.sw).writeWord (lp + 2).toNat
      (s.ic + 1) := by rw [ht]
  rw [← hmem] at r0 r1 r2
  have haddr : t.daLong lp 0 = lp := BitVec.add_zero lp
  have hread (n : Nat) {la w : Word} (h : t.mem.readWord la.toNat = w) : (t.turns n).read la = .ok w :=
    (State.read_unprotected htc htq n la).trans (congrArg Except.ok h)
  have hlst : exec (.lst 0 lp) t = .next ((t.turns 3).loadStatus (Ext.ofWords s.mask s.sw (s.ic + 1))) :=
    execLst_eq_loadStatus hps (by rw [haddr]; exact hread 0 r0) (by rw [haddr]; exact hread 1 r1)
      (by rw [haddr]; exact hread 2 r2)
  obtain ⟨d', hturns, -⟩ := htq.turns 3
  obtain ⟨x, n, hx, hok, -⟩ := (t.turns 3).loadStatus_eq s.mask s.sw (s.ic + 1)
  have hlegal : asLegal (t.turns 3).cfg (asOf s.sw) = true := by
    rw [State.turns_cfg]
    exact (htc.asLegal_iff _).2 (asOf_eq_zero hreserved)
  refine ⟨_, hlst, ?_⟩
  rw [hok hlegal, hturns, hx.eq hreserved]
  refine ⟨rfl, rfl, rfl, ?_⟩
  rw [ht]
  exact ⟨rfl, rfl, rfl, rfl⟩

end Sys2Proof.Certificates
end

section
/-! XIO: which command a command word names, what the instruction does with it, and the statements CommandSet and
InterruptCommands. -/

namespace Sys2Proof.Machine

/-! ### Command words (40_io.md R232 to R234, R290) -/

/-- A word by its two bytes. -/
theorem eq_append_iff (w : Word) (hi lo : Byte) :
    w = (hi ++ lo : BitVec (8 + 8)) ↔ Word.upper w = hi ∧ Word.lower w = lo := by
  constructor
  · rintro rfl
    exact ⟨BitVec.extractLsb'_append_eq_left, BitVec.extractLsb'_append_eq_right⟩
  · rintro ⟨rfl, rfl⟩
    have hjoin : (w.extractLsb' 8 8 ++ w.extractLsb' 0 8 : BitVec (8 + 8)) = w.extractLsb' 0 16 :=
      BitVec.extractLsb'_append_extractLsb'_eq_extractLsb' rfl
    exact (hjoin.trans BitVec.extractLsb'_eq_self).symm

theorem xioCommand_of_table {c : Config} {cmd : Word} {x : XioCmd} (h : tableCommand c cmd = some x) :
    xioCommand c cmd = some x := by
  rw [xioCommand, h]

theorem xioCommand_isSome (c : Config) (cmd : Word) :
    (xioCommand c cmd).isSome = true ↔ (tableCommand c cmd).isSome = true ∨ cmd ∈ c.spareXio := by
  rw [xioCommand]
  cases tableCommand c cmd with
  | some x => simp
  | none => by_cases h : cmd ∈ c.spareXio <;> simp [onlyIf, h]

theorem onlyIf_false {α : Type} {b : Bool} (h : b = false) (x : α) : onlyIf b x = none := by
  rw [h]
  rfl

theorem onlyIf_true {α : Type} {b : Bool} (h : b = true) (x : α) : onlyIf b x = some x := by
  rw [h]
  rfl

/-! ### XIO (R230, R231, R233) -/

section
variable {s : State} {ra rx : Reg} {addr : Word} (hps : s.ps = 0#4)
include hps

theorem exec_xio_missing (h : xioCommand s.cfg (s.daLong addr rx) = none) :
    exec (.xio ra rx addr) s = .next (s.raiseIllegalIo 2) := by
  have hexec : exec (.xio ra rx addr) s = execXio ra rx addr s := rfl
  rw [hexec, execXio, if_neg (not_not.2 hps), h]

theorem exec_xio_output {c : OutCmd} {t : State} (h : xioCommand s.cfg (s.daLong addr rx) = some (.output c))
    (hout : s.output c (s.reg ra) = .done t) : exec (.xio ra rx addr) s = .next (t.advance 2) := by
  have hexec : exec (.xio ra rx addr) s = execXio ra rx addr s := rfl
  rw [hexec, execXio, if_neg (not_not.2 hps), h]
  dsimp only
  rw [hout]

theorem exec_xio_faulted {c : OutCmd} {f : FaultReq} {t : State}
    (h : xioCommand s.cfg (s.daLong addr rx) = some (.output c)) (hout : s.output c (s.reg ra) = .faulted f t) :
    exec (.xio ra rx addr) s = .next (t.raise f) := by
  have hexec : exec (.xio ra rx addr) s = execXio ra rx addr s := rfl
  rw [hexec, execXio, if_neg (not_not.2 hps), h]
  dsimp only
  rw [hout]

theorem exec_xio_input {c : InCmd} (h : xioCommand s.cfg (s.daLong addr rx) = some (.input c)) :
    exec (.xio ra rx addr) s = .next (((s.input c).2.setReg ra (s.input c).1).advance 2) := by
  have hexec : exec (.xio ra rx addr) s = execXio ra rx addr s := rfl
  rw [hexec, execXio, if_neg (not_not.2 hps), h]

end

/-! ### The commands of a machine with no option -/

/-- Commands every machine has: 20XX. -/
def plainOutputs : List Byte := [0x00#8, 0x01#8, 0x02#8, 0x03#8, 0x04#8, 0x05#8, 0x0E#8]

/-- Commands every machine has: A0XX. -/
def plainInputs : List Byte := [0x00#8, 0x04#8, 0x0E#8, 0x0F#8]

section
variable {c : Config} (hdiscretes : c.hasDiscretes = false)
include hdiscretes

theorem command20_isSome (hnpu : c.hasNpu = false) (lo : Byte) :
    (command20 c lo).isSome = true ↔ lo ∈ plainOutputs := by
  unfold command20
  split
  case h_10 => simp_all [plainOutputs]
  all_goals simp [plainOutputs, onlyIf, hdiscretes, hnpu]

theorem commandA0_isSome (hioic : c.hasIoic = false) (hpio : c.hasPio = false) (hmfsr : c.hasMfsr = false) (lo : Byte) :
    (commandA0 c lo).isSome = true ↔ lo ∈ plainInputs := by
  unfold commandA0
  split
  case h_11 => simp_all [plainInputs]
  all_goals simp [plainInputs, onlyIf, hdiscretes, hioic, hpio, hmfsr]

end

theorem command40_eq_none {c : Config} (hconsole : c.hasConsole = false) (hmprot : c.hasMprot = false)
    (hrom : c.surom = none) (hdma : c.hasDma = false) (htimers : c.hasTimers = false) (hgo : c.hasGo = false)
      (lo : Byte) :
    command40 c lo = none := by
  unfold command40
  split <;> simp [onlyIf, hconsole, hmprot, hrom, hdma, htimers, hgo]

theorem commandC0_eq_none {c : Config} (hconsole : c.hasConsole = false) (htimers : c.hasTimers = false) (lo : Byte) :
    commandC0 c lo = none := by
  unfold commandC0
  split <;> simp [onlyIf, hconsole, htimers]

theorem ramOk_eq_false {c : Config} (h : c.hasMprot = false) (lo : Byte) : ramOk c lo = false := by
  rw [ramOk, h]
  rfl

theorem pageOk_eq_false {c : Config} (h : c.mmu = none) (lo : Byte) : pageOk c lo = false := by
  rw [pageOk, h]

/-- The words with a given upper byte and a lower byte of a list. -/
theorem mem_map_append_iff (hi : Byte) (los : List Byte) (w : Word) :
    w ∈ los.map (fun lo => (hi ++ lo : BitVec (8 + 8))) ↔ Word.upper w = hi ∧ Word.lower w ∈ los := by
  rw [List.mem_map]
  constructor
  · rintro ⟨lo, hlo, rfl⟩
    obtain ⟨hup, hlow⟩ := (eq_append_iff _ hi lo).1 rfl
    refine ⟨hup, ?_⟩
    rw [hlow]
    exact hlo
  · rintro ⟨hup, hlow⟩
    exact ⟨Word.lower w, hlow, ((eq_append_iff w hi _).2 ⟨hup, rfl⟩).symm⟩

/-- The words of the commands every machine has. -/
theorem plainCommands_eq :
    [0x2000#16, 0x2001#16, 0x2002#16, 0x2003#16, 0x2004#16, 0x2005#16, 0x200E#16, 0xA000#16, 0xA004#16, 0xA00E#16,
      0xA00F#16] =
      plainOutputs.map (fun lo => (0x20#8 ++ lo : BitVec (8 + 8))) ++
        plainInputs.map (fun lo => (0xA0#8 ++ lo : BitVec (8 + 8))) := rfl

/-! ### What SPI holds back (60_exceptions.md R824) -/

theorem foldl_or_eq (l : List Word) (a : Word) : l.foldl (· ||| ·) a = a ||| heldBits l := by
  refine BitVec.eq_of_getLsbD_eq fun i _ => Bool.eq_iff_iff.2 ?_
  rw [BitVec.getLsbD_or, Bool.or_eq_true, heldBits, getLsbD_foldl_or, getLsbD_foldl_or]
  simp

theorem heldBits_cons (h : Word) (l : List Word) : heldBits (h :: l) = h ||| heldBits l := by
  rw [heldBits, List.foldl_cons, foldl_or_eq]
  exact congrArg (· ||| heldBits l) BitVec.zero_or

theorem heldBits_addHold (m : Word) : ∀ (n : Nat) (held : List Word) (j : Nat),
    heldBits ((addHold m n held).drop j) = heldBits (held.drop j) ||| (if j ≤ n then m else 0#16)
  | 0, [], 0 => rfl
  | 0, [], j + 1 => by simp [addHold, heldBits]
  | 0, h :: rest, 0 => by
    rw [addHold, List.drop_zero, List.drop_zero, heldBits_cons, heldBits_cons, if_pos (Nat.le_refl 0), BitVec.or_assoc,
      BitVec.or_assoc, BitVec.or_comm m]
  | 0, h :: rest, j + 1 => by simp [addHold]
  | n + 1, [], 0 => by
    have ih := heldBits_addHold m n [] 0
    rw [addHold, List.drop_zero, heldBits_cons]
    simpa using ih
  | n + 1, [], j + 1 => by
    have ih := heldBits_addHold m n [] j
    simpa [addHold] using ih
  | n + 1, h :: rest, 0 => by
    have ih := heldBits_addHold m n rest 0
    rw [List.drop_zero, List.drop_zero, if_pos (Nat.zero_le n)] at ih
    rw [addHold, List.drop_zero, List.drop_zero, heldBits_cons, heldBits_cons, if_pos (Nat.zero_le _), ih,
      BitVec.or_assoc]
  | n + 1, h :: rest, j + 1 => by
    have ih := heldBits_addHold m n rest j
    simpa [addHold] using ih

/-- At each boundary to come, the bits set newly are held back too, for as many boundaries as the latency. -/
theorem heldBits_holdFor (m : Word) (n : Nat) (held : List Word) (j : Nat) :
    heldBits ((holdFor m n held).drop j) = heldBits (held.drop j) ||| (if j < n then m else 0#16) := by
  cases n with
  | zero => rw [holdFor, if_neg (Nat.not_lt_zero j), BitVec.or_zero]
  | succ k => exact (heldBits_addHold m k held j).trans (by simp only [Nat.lt_succ_iff])

/-! ### RPI (40_io.md R244, decision D24) -/

theorem extractLsb'_toNat_mod (r : Word) : (r.extractLsb' 0 4).toNat = r.toNat % 16 := by
  rw [BitVec.extractLsb'_toNat, Nat.shiftRight_zero]

/-- RPI on the bit that the low four bits of its data name. -/
theorem State.output_rpi (s : State) (r : Word) :
    s.output .rpi r = .done { s with
      pi := s.pi &&& ~~~BitVec.twoPow 16 (15 - r.toNat % 16)
      spiHold := releaseHold (BitVec.twoPow 16 (15 - r.toNat % 16)) s.spiHold
      ft := if r.toNat % 16 = 1 then 0 else s.ft } := by
  have hone : r.extractLsb' 0 4 = 1#4 ↔ r.toNat % 16 = 1 := by
    rw [← BitVec.toNat_inj, extractLsb'_toNat_mod]
    rfl
  rw [State.output]
  simp only [bitMask_eq_twoPow, extractLsb'_toNat_mod, hone]

end Sys2Proof.Machine

/-! ### The statements -/

namespace Sys2Proof.Certificates

open Sys2Proof.Machine

/-- Settles O58: the table of a machine with no option has the eleven commands, the rest are spare; a missing one is
`exec_xio_missing`. -/
theorem commandSet : Obligations.CommandSet := by
  refine ⟨fun c cmd hmmu hmfsr hmprot hrom htimers hioic hdma hconsole hdiscretes hnpu hgo hpio => ?_, ?_⟩
  · rw [xioCommand_isSome, plainCommands_eq, List.mem_append, mem_map_append_iff, mem_map_append_iff]
    refine or_congr_left ?_
    have h20 := command20_isSome hdiscretes hnpu (Word.lower cmd)
    have hA0 := commandA0_isSome hdiscretes hioic hpio hmfsr (Word.lower cmd)
    have h40 := command40_eq_none hconsole hmprot hrom hdma htimers hgo (Word.lower cmd)
    have hC0 := commandC0_eq_none hconsole htimers (Word.lower cmd)
    have hram := ramOk_eq_false hmprot (Word.lower cmd)
    have hpage := pageOk_eq_false hmmu (Word.lower cmd)
    unfold tableCommand
    dsimp only
    rw [h40, hC0, hram, hpage, hpio]
    split <;> simp_all [onlyIf]
  · intro s ra rx addr hps h
    rw [exec_xio_missing hps h]
    rfl

/-- Settles O55: each command by its word; WSW by `State.writeSw_eq`. -/
theorem interruptCommands : Obligations.InterruptCommands := by
  intro s ra rx addr hps r b cmd o
  have command {w : Word} {x : XioCmd} (h : cmd = w) (hw : tableCommand s.cfg w = some x) :
      xioCommand s.cfg cmd = some x := xioCommand_of_table ((congrArg _ h).trans hw)
  refine ⟨fun h => ?smk, fun h => ?clir, fun h => ?enbl, fun h => ?dsbl, fun h => ?rpi, fun h => ?spi,
    fun h hlegal => ?wsw, fun h hbad => ?wswBad⟩
  case smk => exact exec_xio_output hps (command h rfl) rfl
  case clir => exact exec_xio_output hps (command h rfl) rfl
  case enbl => exact exec_xio_output hps (command h rfl) rfl
  case dsbl => exact exec_xio_output hps (command h rfl) rfl
  case rpi => exact exec_xio_output hps (command h rfl) (s.output_rpi r)
  case spi =>
    exact ⟨holdFor (r &&& ~~~s.pi) s.cfg.spiLatency s.spiHold, fun j => heldBits_holdFor _ _ _ j,
      exec_xio_output hps (command h rfl) rfl⟩
  case wsw =>
    obtain ⟨x, n, hx, hwrite⟩ := s.writeSw_eq r
    have hout : s.output .wsw r = .done { s with sw := x, freeCount := n } := by
      rw [← hwrite]
      exact if_pos hlegal
    exact ⟨x, n, hx, exec_xio_output hps (command h rfl) hout⟩
  case wswBad =>
    obtain ⟨x, n, hx, hwrite⟩ := s.writeSw_eq r
    have hout : s.output .wsw r = .faulted addressStateFault { s with sw := x, freeCount := n } := by
      rw [← hwrite]
      exact if_neg (Bool.eq_false_iff.1 hbad)
    refine ⟨x, ({ s with sw := x, freeCount := n } : State).free 0, n + 1, hx, ?_⟩
    refine (exec_xio_faulted hps (command h rfl) hout).trans ?_
    rw [State.raise_eq_afterFault]
    rfl

end Sys2Proof.Certificates
end

section
/-! The end of a step: the interrupt that is due, the delayed effect of ENBL, and the statements StepTakesInterrupt,
EnableDelay. -/

namespace Sys2Proof.Machine

/-! ### The boundary with nothing from outside (60_exceptions.md R815, R822) -/

theorem State.endEnable_false (s : State) : s.endEnable false = s := if_neg Bool.false_ne_true

theorem State.endEnable_true (s : State) :
    s.endEnable true = if s.enblPending then { s with ien := true, enblPending := false } else s := rfl

/-- Where recognition is made of `v`, the interrupt due is taken there, with the IC that `interruptPoint` gives. -/
theorem State.boundary_due {u v w : State} {was : Bool} {n : BitVec 4} (hs : u.schedule = []) (hh : u.halted = false)
    (hv : u.endEnable was = v) (hn : v.nextInterrupt = some n)
    (henter : State.enterInterrupt { v with ic := v.resumeIc.getD v.ic } n 0 (v.resumeIc.getD v.ic) = .done w)
    (hw : w.nextInterrupt = none) : u.boundary was = { w with spiHold := w.spiHold.tail, resumeIc := none } := by
  subst hv
  have hpoint : (u.endEnable was).interruptPoint =
      { u.endEnable was with ic := (u.endEnable was).resumeIc.getD (u.endEnable was).ic } := by
    rw [State.interruptPoint, hn]
    rfl
  refine State.boundary_takes was hs hh hn ?_ hw
  rw [hpoint]
  exact henter

/-! ### Fetches and DMA -/

/-- A fetched instruction leaves the state as it was but for DMA. -/
theorem State.fetchInstr_dmaOnly {s f : State} {i : Instr} (h : s.fetchInstr = (.ok i, f)) : DmaOnly s f := by
  have hone := DmaOnly.turn s
  unfold State.fetchInstr at h
  split at h
  · cases h
  · split at h
    · cases h
    · split at h
      · cases h
      · split at h
        · cases h
          exact hone
        · split at h
          · cases h
          · cases h
            exact hone.trans (DmaOnly.turn s.turn)

/-! ### ENBL (40_io.md R242) -/

theorem exec_enbl {f : State} {ra rx : Reg} {addr : Word} (hps : f.ps = 0#4) (hcmd : f.daLong addr rx = 0x2002#16) :
    exec (.xio ra rx addr) f = .next { f with ic := f.ic + 2, enblPending := true } := by
  have hc : xioCommand f.cfg (f.daLong addr rx) = some (.output .enbl) := by
    rw [hcmd]
    exact xioCommand_of_table rfl
  exact exec_xio_output hps hc rfl

end Sys2Proof.Machine

/-! ### The statements -/

namespace Sys2Proof.Certificates

open Sys2Proof.Machine

/-- Settles O53: the boundary of `u` after the fetched instruction. -/
theorem stepTakesInterrupt : Obligations.StepTakesInterrupt := by
  intro s f u t i n hh hpending hf hexec hs hhu v
  have hstep : step s = .next (u.boundary false) := by
    rw [step_of_fetched hh hf, hpending, hexec]
    rfl
  rw [hstep]
  refine ⟨fun hn => ?_, fun hn henter ht => ?_⟩
  · have hquiet := State.boundary_quiet false hs (.inr (u.endEnable_false.symm ▸ hn))
    rw [u.endEnable_false] at hquiet
    exact congrArg Host.Outcome.next hquiet
  · exact congrArg Host.Outcome.next (State.boundary_due hs hhu u.endEnable_false hn henter ht)

/-- Settles O54: the boundary of the ENBL's step samples the latch before it, that of the next step after it. -/
theorem enableDelay : Obligations.EnableDelay := by
  unfold Obligations.EnableDelay
  intro s f ra rx addr hh hpending hs hps hf hcmd ends takes enbl
  have hdma := State.fetchInstr_dmaOnly hf
  unfold DmaOnly at hdma
  have hfs : f.schedule = [] ∧ f.halted = false ∧ f.ic = s.ic ∧ f.ps = 0#4 ∧ f.daLong addr rx = 0x2002#16 := by
    rw [hdma]
    exact ⟨hs, hh, rfl, hps, hcmd⟩
  obtain ⟨hfs, hfh, hfic, hfps, hfcmd⟩ := hfs
  have hexec : exec (.xio ra rx addr) f = .next enbl := by
    rw [exec_enbl hfps hfcmd, hfic]
  have hstep : step s = .next (enbl.boundary false) := by
    rw [step_of_fetched hh hf, hpending, hexec]
    rfl
  refine ⟨fun hn => ?quiet, fun n w ⟨hn, hw, henter⟩ => ?taken, ?next⟩
  case quiet =>
    rw [hstep]
    have hquiet := State.boundary_quiet (s := enbl) false hfs (.inr (enbl.endEnable_false.symm ▸ hn))
    rw [enbl.endEnable_false] at hquiet
    exact congrArg Host.Outcome.next hquiet
  case taken =>
    obtain ⟨hien, hoff, -⟩ := State.enterInterrupt_done henter
    rw [hstep]
    exact ⟨congrArg Host.Outcome.next (State.boundary_due (u := enbl) hfs hfh enbl.endEnable_false hn henter hw),
      hien, hoff⟩
  case next =>
    intro g u i hg hu hus v
    have hv : u.endEnable true = v := u.endEnable_true
    have hstep' : step (ends enbl) = .next (u.boundary true) := by
      rw [step_of_fetched (s := ends enbl) hfh hg, hu]
      rfl
    rw [hstep']
    refine ⟨fun hnone => ?_, fun n w huh ⟨hn, hw, henter⟩ => ?_⟩
    · have hquiet := State.boundary_quiet true hus (hnone.imp_right fun h => hv.symm ▸ h)
      rw [hv] at hquiet
      exact congrArg Host.Outcome.next hquiet
    · exact congrArg Host.Outcome.next (State.boundary_due hus huh hv hn henter hw)

end Sys2Proof.Certificates
end

section
/-! The commands of the optional devices and the input commands, and the statements DeviceCommands, InputCommands. -/

namespace Sys2Proof.Machine

/-! ### Command words by their bytes (40_io.md R290) -/

section
variable {c : Config} {cmd : Word}

/-- A command word of a table of 256 by its number. -/
theorem upper_lower_of_add {hi : Byte} {a : Nat} (ha : a < 256) (h : cmd.toNat = hi.toNat * 256 + a) :
    Word.upper cmd = hi ∧ (Word.lower cmd).toNat = a := by
  constructor
  · rw [← BitVec.toNat_inj, toNat_upper]
    omega
  · rw [toNat_lower]
    omega

/-- The four pages of 256 output ports. -/
theorem tableCommand_po (hpio : c.hasPio = true) (h : cmd.toNat < 0x400) :
    tableCommand c cmd = some (.output (.po (cmd.extractLsb' 0 10))) := by
  have hup : Word.upper cmd = 0x00#8 ∨ Word.upper cmd = 0x01#8 ∨ Word.upper cmd = 0x02#8 ∨ Word.upper cmd = 0x03#8 := by
    simp only [← BitVec.toNat_inj, toNat_upper, BitVec.toNat_ofNat, Nat.reducePow, Nat.reduceMod]
    omega
  obtain hup | hup | hup | hup := hup <;> rw [tableCommand, hup] <;> exact onlyIf_true hpio _

/-- The four pages of 256 input ports. -/
theorem tableCommand_pi (hpio : c.hasPio = true) (hlo : 0x8000 ≤ cmd.toNat) (hhi : cmd.toNat < 0x8400) :
    tableCommand c cmd = some (.input (.pi (cmd.extractLsb' 0 10))) := by
  have hup : Word.upper cmd = 0x80#8 ∨ Word.upper cmd = 0x81#8 ∨ Word.upper cmd = 0x82#8 ∨ Word.upper cmd = 0x83#8 := by
    simp only [← BitVec.toNat_inj, toNat_upper, BitVec.toNat_ofNat, Nat.reducePow, Nat.reduceMod]
    omega
  obtain hup | hup | hup | hup := hup <;> rw [tableCommand, hup] <;> exact onlyIf_true hpio _

theorem xioCommand_20 {lo : Byte} {x : OutCmd} (h : cmd = (0x20#8 ++ lo : BitVec (8 + 8)))
    (hx : command20 c lo = some x) : xioCommand c cmd = some (.output x) := by
  obtain ⟨hup, hlow⟩ := (eq_append_iff _ _ _).1 h
  refine xioCommand_of_table ?_
  rw [tableCommand, hup, hlow]
  exact congrArg (Option.map XioCmd.output) hx

theorem xioCommand_40 {lo : Byte} {x : OutCmd} (h : cmd = (0x40#8 ++ lo : BitVec (8 + 8)))
    (hx : command40 c lo = some x) : xioCommand c cmd = some (.output x) := by
  obtain ⟨hup, hlow⟩ := (eq_append_iff _ _ _).1 h
  refine xioCommand_of_table ?_
  rw [tableCommand, hup, hlow]
  exact congrArg (Option.map XioCmd.output) hx

theorem xioCommand_A0 {lo : Byte} {x : InCmd} (h : cmd = (0xA0#8 ++ lo : BitVec (8 + 8)))
    (hx : commandA0 c lo = some x) : xioCommand c cmd = some (.input x) := by
  obtain ⟨hup, hlow⟩ := (eq_append_iff _ _ _).1 h
  refine xioCommand_of_table ?_
  rw [tableCommand, hup, hlow]
  exact congrArg (Option.map XioCmd.input) hx

theorem xioCommand_C0 {lo : Byte} {x : InCmd} (h : cmd = (0xC0#8 ++ lo : BitVec (8 + 8)))
    (hx : commandC0 c lo = some x) : xioCommand c cmd = some (.input x) := by
  obtain ⟨hup, hlow⟩ := (eq_append_iff _ _ _).1 h
  refine xioCommand_of_table ?_
  rw [tableCommand, hup, hlow]
  exact congrArg (Option.map XioCmd.input) hx

theorem ramOk_eq_true (h : c.hasMprot = true) (hlo : (Word.lower cmd).toNat < 128) :
    ramOk c (Word.lower cmd) = true := by
  have hmsb : (Word.lower cmd).msb = false := BitVec.msb_eq_false_iff_two_mul_lt.2 (by omega)
  rw [ramOk, h, hmsb]
  rfl

theorem pageOk_eq_true {m : MmuConfig} (h : c.mmu = some m) (hlo : (Word.lower cmd).toNat < 16 * m.groups.toNat) :
    pageOk c (Word.lower cmd) = true := by
  rw [pageOk, h]
  refine decide_eq_true ?_
  rw [BitVec.extractLsb'_toNat, Nat.shiftRight_eq_div_pow]
  have := (Word.lower cmd).isLt
  omega

/-- A command of the memory protect RAM with its word. -/
theorem onlyIf_ramOk {α : Type} (hmprot : c.hasMprot = true) {a : Nat} (ha : a < 128)
    (hlow : (Word.lower cmd).toNat = a)
    (f : BitVec 7 → α) :
    onlyIf (ramOk c (Word.lower cmd)) (f ((Word.lower cmd).extractLsb' 0 7)) = some (f (BitVec.ofNat 7 a)) := by
  have hword : (Word.lower cmd).extractLsb' 0 7 = BitVec.ofNat 7 a := by
    rw [← BitVec.toNat_inj, BitVec.extractLsb'_toNat, Nat.shiftRight_zero, hlow, BitVec.toNat_ofNat]
  rw [onlyIf_true (ramOk_eq_true hmprot (hlow ▸ ha)), hword]

/-- A command of a page register with its number. -/
theorem onlyIf_pageOk {α : Type} {m : MmuConfig} (hmmu : c.mmu = some m) {a : Nat} (ha : a < 16 * m.groups.toNat)
    (hlow : (Word.lower cmd).toNat = a) (f : Byte → α) :
    onlyIf (pageOk c (Word.lower cmd)) (f (Word.lower cmd)) = some (f (BitVec.ofNat 8 a)) := by
  have hpage : Word.lower cmd = BitVec.ofNat 8 a := by
    rw [← hlow, BitVec.ofNat_toNat, BitVec.setWidth_eq]
  rw [onlyIf_true (pageOk_eq_true hmmu (hlow ▸ ha)), hpage]

section
variable (hmprot : c.hasMprot = true) {a : Nat} (ha : a < 128)
include hmprot ha

theorem tableCommand_lmp (h : cmd.toNat = 0x5000 + a) :
    tableCommand c cmd = some (.output (.lmp (BitVec.ofNat 7 a))) := by
  obtain ⟨hup, hlow⟩ := upper_lower_of_add (hi := 0x50#8) (by omega) h
  rw [tableCommand, hup]
  exact onlyIf_ramOk hmprot ha hlow fun p => XioCmd.output (.lmp p)

theorem tableCommand_rmp (h : cmd.toNat = 0xD000 + a) :
    tableCommand c cmd = some (.input (.rmp (BitVec.ofNat 7 a))) := by
  obtain ⟨hup, hlow⟩ := upper_lower_of_add (hi := 0xD0#8) (by omega) h
  rw [tableCommand, hup]
  exact onlyIf_ramOk hmprot ha hlow fun p => XioCmd.input (.rmp p)

end

section
variable {m : MmuConfig} (hmmu : c.mmu = some m) {a : Nat} (ha : a < 256) (hgroup : a < 16 * m.groups.toNat)
include hmmu ha hgroup

theorem tableCommand_wipr (h : cmd.toNat = 0x5100 + a) :
    tableCommand c cmd = some (.output (.wipr (BitVec.ofNat 8 a))) := by
  obtain ⟨hup, hlow⟩ := upper_lower_of_add (hi := 0x51#8) ha h
  rw [tableCommand, hup]
  exact onlyIf_pageOk hmmu hgroup hlow fun p => XioCmd.output (.wipr p)

theorem tableCommand_wopr (h : cmd.toNat = 0x5200 + a) :
    tableCommand c cmd = some (.output (.wopr (BitVec.ofNat 8 a))) := by
  obtain ⟨hup, hlow⟩ := upper_lower_of_add (hi := 0x52#8) ha h
  rw [tableCommand, hup]
  exact onlyIf_pageOk hmmu hgroup hlow fun p => XioCmd.output (.wopr p)

theorem tableCommand_ripr (h : cmd.toNat = 0xD100 + a) :
    tableCommand c cmd = some (.input (.ripr (BitVec.ofNat 8 a))) := by
  obtain ⟨hup, hlow⟩ := upper_lower_of_add (hi := 0xD1#8) ha h
  rw [tableCommand, hup]
  exact onlyIf_pageOk hmmu hgroup hlow fun p => XioCmd.input (.ripr p)

theorem tableCommand_ropr (h : cmd.toNat = 0xD200 + a) :
    tableCommand c cmd = some (.input (.ropr (BitVec.ofNat 8 a))) := by
  obtain ⟨hup, hlow⟩ := upper_lower_of_add (hi := 0xD2#8) ha h
  rw [tableCommand, hup]
  exact onlyIf_pageOk hmmu hgroup hlow fun p => XioCmd.input (.ropr p)

end

end

/-! ### What some of the commands do, as the statements write it -/

section
variable (s : State) (r : Word)

theorem State.output_lmp (a : Fin 128) : s.output (.lmp (BitVec.ofNat 7 a)) r =
    .done { s with ctl := { s.ctl with mpr := s.ctl.mpr.set a.val r a.isLt } } := by
  have ha : (BitVec.ofNat 7 a.val).toNat = a.val := Nat.mod_eq_of_lt a.isLt
  rw [State.output]
  simp only [ha]

theorem State.output_wipr (a : Fin 256) : s.output (.wipr (BitVec.ofNat 8 a)) r =
    .done { s with ctl := { s.ctl with iPage := s.ctl.iPage.set a.val (pageValue s.cfg r) a.isLt } } := by
  have ha : (BitVec.ofNat 8 a.val).toNat = a.val := Nat.mod_eq_of_lt a.isLt
  rw [State.output]
  simp only [ha]

theorem State.output_wopr (a : Fin 256) : s.output (.wopr (BitVec.ofNat 8 a)) r =
    .done { s with ctl := { s.ctl with oPage := s.ctl.oPage.set a.val (pageValue s.cfg r) a.isLt } } := by
  have ha : (BitVec.ofNat 8 a.val).toNat = a.val := Nat.mod_eq_of_lt a.isLt
  rw [State.output]
  simp only [ha]

theorem pageValue_eq {c : Config} {m : MmuConfig} (h : c.mmu = some m) :
    pageValue c r = if m.hasLock then r &&& 0xF8FF#16 else r &&& 0x08FF#16 := by
  rw [pageValue, h]

/-- What two bytes sent to a console are. -/
theorem State.output_co_connected (h : s.cfg.consoleConnected = true) :
    s.output .co r = .done { s with dev := { s.dev with
      consoleOut := s.dev.consoleOut ++ [BitVec.ofNat 8 (r.toNat / 256), BitVec.ofNat 8 r.toNat]
      outputs := s.dev.outputs ++ [.console (BitVec.ofNat 8 (r.toNat / 256)),
        .console (BitVec.ofNat 8 r.toNat)] } } := by
  rw [State.output, if_pos h, upper_eq_ofNat, lower_eq_ofNat]
  rfl

theorem State.output_co_absent (h : s.cfg.consoleConnected = false) : s.output .co r = .done s := by
  rw [State.output, if_neg (Bool.eq_false_iff.1 h)]

end

section
variable (s : State)

theorem State.input_ci_two {b1 b2 : Byte} {rest : List Byte} (hconn : s.cfg.consoleConnected = true)
    (hin : s.dev.consoleIn = b1 :: b2 :: rest) :
    s.input .ci = ((b1 ++ b2 : BitVec (8 + 8)), { s with dev := { s.dev with consoleIn := rest } }) := by
  rw [State.input, hconn, hin]

theorem State.input_ci_short (h : s.cfg.consoleConnected = false ∨ s.dev.consoleIn.length < 2) :
    s.input .ci = (s.free 0, s.spend 1) := by
  rw [State.input]
  split
  · rename_i hconn hin
    obtain h | h := h
    · exact absurd (h.symm.trans hconn) Bool.false_ne_true
    · rw [hin] at h
      simp at h
  · rfl

theorem State.input_rmp (a : Fin 128) : s.input (.rmp (BitVec.ofNat 7 a)) = (s.ctl.mpr[a], s) := by
  have ha : (BitVec.ofNat 7 a.val).toNat = a.val := Nat.mod_eq_of_lt a.isLt
  rw [State.input]
  simp only [ha]
  rfl

theorem State.input_ripr (a : Fin 256) : s.input (.ripr (BitVec.ofNat 8 a)) = (s.ctl.iPage[a], s) := by
  have ha : (BitVec.ofNat 8 a.val).toNat = a.val := Nat.mod_eq_of_lt a.isLt
  rw [State.input]
  simp only [ha]
  rfl

theorem State.input_ropr (a : Fin 256) : s.input (.ropr (BitVec.ofNat 8 a)) = (s.ctl.oPage[a], s) := by
  have ha : (BitVec.ofNat 8 a.val).toNat = a.val := Nat.mod_eq_of_lt a.isLt
  rw [State.input]
  simp only [ha]
  rfl

end

end Sys2Proof.Machine

/-! ### The statements -/

namespace Sys2Proof.Certificates

open Sys2Proof.Machine

/-- Settles O56: each command by its word (`xioCommand_20`, `xioCommand_40`, the tables), then `exec_xio_output`. -/
theorem deviceCommands : Obligations.DeviceCommands := by
  intro s ra rx addr hps r cmd o dev ctl
  have sends {c : OutCmd} {t : State} (hc : xioCommand s.cfg cmd = some (.output c)) (hout : s.output c r = .done t) :
      o = .next (t.advance 2) := exec_xio_output hps hc hout
  refine ⟨fun hpio h => ?ports, fun h hd => ?discretes, fun h hnpu => ?powerUp, fun hconsole => ?console,
    fun hdma => ?dma, fun htimers => ?timers, fun h hgo => ?go, fun hrom => ?rom, fun hmprot => ?protection,
    ?pages⟩
  case ports =>
    have hport : cmd.extractLsb' 0 10 = BitVec.ofNat 10 cmd.toNat := by
      rw [← BitVec.toNat_inj, BitVec.extractLsb'_toNat, Nat.shiftRight_zero, BitVec.toNat_ofNat]
    rw [← hport]
    exact sends (xioCommand_of_table (tableCommand_po hpio h)) rfl
  case discretes => exact sends (xioCommand_20 (lo := 0x08#8) h (onlyIf_true hd _)) rfl
  case powerUp => exact sends (xioCommand_20 (lo := 0x0A#8) h (onlyIf_true hnpu _)) rfl
  case console =>
    refine ⟨fun h hconn => ?_, fun h hconn => ?_, fun h => ?_⟩
    · exact sends (xioCommand_40 (lo := 0x00#8) h (onlyIf_true hconsole _)) (s.output_co_connected r hconn)
    · exact sends (xioCommand_40 (lo := 0x00#8) h (onlyIf_true hconsole _)) (s.output_co_absent r hconn)
    · exact sends (xioCommand_40 (lo := 0x01#8) h (onlyIf_true hconsole _)) rfl
  case dma =>
    refine ⟨fun h => ?_, fun h => ?_⟩
    · exact sends (xioCommand_40 (lo := 0x06#8) h (onlyIf_true hdma _)) rfl
    · exact sends (xioCommand_40 (lo := 0x07#8) h (onlyIf_true hdma _)) rfl
  case timers =>
    refine ⟨fun h => ?_, fun h => ?_, fun h => ?_, fun h => ?_, fun h => ?_, fun h => ?_⟩
    · exact sends (xioCommand_40 (lo := 0x08#8) h (onlyIf_true htimers _)) rfl
    · exact sends (xioCommand_40 (lo := 0x09#8) h (onlyIf_true htimers _)) rfl
    · exact sends (xioCommand_40 (lo := 0x0A#8) h (onlyIf_true htimers _)) rfl
    · exact sends (xioCommand_40 (lo := 0x0C#8) h (onlyIf_true htimers _)) rfl
    · exact sends (xioCommand_40 (lo := 0x0D#8) h (onlyIf_true htimers _)) rfl
    · exact sends (xioCommand_40 (lo := 0x0E#8) h (onlyIf_true htimers _)) rfl
  case go => exact sends (xioCommand_40 (lo := 0x0B#8) h (onlyIf_true hgo _)) rfl
  case rom =>
    have hsome : s.cfg.surom.isSome = true := Option.isSome_iff_ne_none.2 hrom
    refine ⟨fun h => ?_, fun h => ?_⟩
    · exact sends (xioCommand_40 (lo := 0x04#8) h (onlyIf_true hsome _)) rfl
    · exact sends (xioCommand_40 (lo := 0x05#8) h (onlyIf_true hsome _)) rfl
  case protection =>
    refine ⟨fun h => ?_, fun a h => ?_⟩
    · exact sends (xioCommand_40 (lo := 0x03#8) h (onlyIf_true hmprot _)) rfl
    · exact sends (xioCommand_of_table (tableCommand_lmp hmprot a.isLt h)) (s.output_lmp r a)
  case pages =>
    intro m hmmu v a ha
    have hv : v = pageValue s.cfg r := (pageValue_eq r hmmu).symm
    rw [hv]
    refine ⟨fun h => ?_, fun h => ?_⟩
    · exact sends (xioCommand_of_table (tableCommand_wipr hmmu a.isLt ha h)) (s.output_wipr r a)
    · exact sends (xioCommand_of_table (tableCommand_wopr hmmu a.isLt ha h)) (s.output_wopr r a)

/-- Settles O57: each command by its word (`xioCommand_A0`, `xioCommand_C0`, the tables), then `exec_xio_input`. -/
theorem inputCommands : Obligations.InputCommands := by
  intro s ra rx addr hps cmd reads shows
  have gives {c : InCmd} {t : State} {v : Word} (hc : xioCommand s.cfg cmd = some (.input c))
      (hin : s.input c = (v, t)) (hreg : t.reg = s.reg) (hcs : t.cs = s.cs) (hic : t.ic = s.ic) : reads t v := by
    have hexec := exec_xio_input hps hc (ra := ra)
    rw [hin, State.setReg_advance_eq_after, hreg, hcs, hic] at hexec
    exact hexec
  refine ⟨fun h => ?rmk, fun h => ?rpir, fun h => ?rsw, fun h => ?rcfr, fun hioic => ?ioic, fun hd => ?discretes,
    fun hpio => ?ports, fun h hmfsr => ?rmfs, fun htimers => ?timers, fun hconsole => ?console,
    fun hmprot a h => ?protection, fun m hmmu a ha => ?pages⟩
  case rmk => exact gives (xioCommand_A0 (lo := 0x00#8) h rfl) rfl rfl rfl rfl
  case rpir => exact gives (xioCommand_A0 (lo := 0x04#8) h rfl) rfl rfl rfl rfl
  case rsw => exact gives (xioCommand_A0 (lo := 0x0E#8) h rfl) rfl rfl rfl rfl
  case rcfr => exact gives (xioCommand_A0 (lo := 0x0F#8) h rfl) rfl rfl rfl rfl
  case ioic =>
    have hword (c : BitVec 7) : c.zeroExtend 16 = BitVec.ofNat 16 c.toNat := (BitVec.ofNat_toNat 16 c).symm
    refine ⟨fun h => ⟨_, shownChannel_spec _ _, ?_⟩, fun h => ⟨_, shownChannel_spec _ _, ?_⟩⟩
    · rw [← hword]
      exact gives (xioCommand_A0 (lo := 0x01#8) h (onlyIf_true hioic _)) rfl rfl rfl rfl
    · rw [← hword]
      exact gives (xioCommand_A0 (lo := 0x02#8) h (onlyIf_true hioic _)) rfl rfl rfl rfl
  case discretes =>
    refine ⟨fun h => ?_, fun h => ?_⟩
    · exact gives (xioCommand_A0 (lo := 0x08#8) h (onlyIf_true hd _)) rfl rfl rfl rfl
    · exact gives (xioCommand_A0 (lo := 0x09#8) h (onlyIf_true hd _)) rfl rfl rfl rfl
  case ports =>
    refine ⟨fun h => ?_, fun hlo hhi => ⟨s.free 0, ?_⟩⟩
    · exact gives (xioCommand_A0 (lo := 0x0B#8) h (onlyIf_true hpio _)) rfl rfl rfl rfl
    · exact gives (xioCommand_of_table (tableCommand_pi hpio hlo hhi)) rfl rfl rfl rfl
  case rmfs => exact gives (xioCommand_A0 (lo := 0x0D#8) h (onlyIf_true hmfsr _)) rfl rfl rfl rfl
  case timers =>
    refine ⟨fun h => ?_, fun h => ?_⟩
    · exact gives (xioCommand_C0 (lo := 0x0A#8) h (onlyIf_true htimers _)) rfl rfl rfl rfl
    · exact gives (xioCommand_C0 (lo := 0x0E#8) h (onlyIf_true htimers _)) rfl rfl rfl rfl
  case console =>
    refine ⟨fun h => ?_, fun h hconn b1 b2 rest hin => ?_, fun h hshort => ⟨s.free 0, ?_⟩⟩
    · exact gives (xioCommand_C0 (lo := 0x01#8) h (onlyIf_true hconsole _)) rfl rfl rfl rfl
    · exact gives (xioCommand_C0 (lo := 0x00#8) h (onlyIf_true hconsole _)) (s.input_ci_two hconn hin) rfl rfl rfl
    · exact gives (xioCommand_C0 (lo := 0x00#8) h (onlyIf_true hconsole _)) (s.input_ci_short hshort) rfl rfl rfl
  case protection => exact gives (xioCommand_of_table (tableCommand_rmp hmprot a.isLt h)) (s.input_rmp a) rfl rfl rfl
  case pages =>
    refine ⟨fun h => ?_, fun h => ?_⟩
    · exact gives (xioCommand_of_table (tableCommand_ripr hmmu a.isLt ha h)) (s.input_ripr a) rfl rfl rfl
    · exact gives (xioCommand_of_table (tableCommand_ropr hmmu a.isLt ha h)) (s.input_ropr a) rfl rfl rfl

end Sys2Proof.Certificates
end

section
/-! The chain of VIO, command by command, and the statement VectoredInputOutput. -/

namespace Sys2Proof.Machine

/-! ### A store of one word that is refused (20_memory.md R111) -/

/-- The fault of the only word of a store. -/
theorem State.store_one_fault {s : State} {la : Word} {f : FaultReq} (v : Word) (k : State → Out)
    (hg : groupImplemented s.cfg s.as = true) (h : s.translate .cpu .write s.as (some s.ps) la = .error f) :
    s.store [(la, v)] k = .next ((s.turn.spend 1).raise f) := by
  simp [State.store, State.storeWords, State.firstFault, State.storePicked, hg, h]

/-- A fault raised once a free value has been used. -/
theorem State.raise_spend_eq_afterFault (s : State) (f : FaultReq) :
    (s.spend 1).raise f =
      { s.afterFault (bitMask (f.bit.number s.cfg)) f.bit f.designators ((s.spend 1).free 0) with
        freeCount := s.freeCount + 2 } := by
  rw [State.raise_eq_afterFault]
  rfl

/-! ### What a command of the chain keeps -/

/-- `t` has the configuration and IC of `s`, and a canonical memory if `s` has. -/
structure KeepsPlace (s t : State) : Prop where
  cfg : t.cfg = s.cfg
  ic : t.ic = s.ic
  wf : s.mem.wf = true → t.mem.wf = true

theorem KeepsPlace.trans {a b c : State} (h : KeepsPlace a b) (g : KeepsPlace b c) : KeepsPlace a c :=
  ⟨g.cfg.trans h.cfg, g.ic.trans h.ic, fun w => g.wf (h.wf w)⟩

theorem KeepsPlace.turn (s : State) : KeepsPlace s s.turn := ⟨s.turn_cfg, s.turn_ic, State.turn_wf⟩

theorem KeepsPlace.turns (n : Nat) (s : State) : KeepsPlace s (s.turns n) :=
  ⟨State.turns_cfg n s, State.turns_ic n s, State.turns_wf n⟩

theorem KeepsPlace.adoptSpare (s : State) (op : UserOp) : KeepsPlace s (s.adoptSpare op) := by
  unfold State.adoptSpare State.adopt
  cases Config.userState op s with
  | none => exact ⟨rfl, rfl, id⟩
  | some u =>
    refine ⟨rfl, rfl, fun h => ?_⟩
    by_cases hu : u.mem.legal = true
    · have hmem : (s.take u).mem = u.mem := if_pos hu
      have hboth : u.mem.wf = true ∧ u.mem.below 2097152 = true := Bool.and_eq_true_iff.1 hu
      exact (congrArg Memory.wf hmem).trans hboth.1
    · have hmem : (s.take u).mem = s.mem := if_neg hu
      exact (congrArg Memory.wf hmem).trans h

theorem KeepsPlace.writeSw (s : State) (v : Word) : KeepsPlace s (s.writeSw v) := by
  unfold State.writeSw
  split <;> exact ⟨rfl, rfl, id⟩

theorem KeepsPlace.output (s : State) (c : OutCmd) (r : Word) :
    (∀ t, s.output c r = .done t → KeepsPlace s t) ∧ ∀ f t, s.output c r = .faulted f t → KeepsPlace s t := by
  cases c
  case wsw =>
    unfold State.output
    dsimp only
    split
    · exact ⟨fun t h => by cases h; exact KeepsPlace.writeSw s r, fun f t h => nomatch h⟩
    · exact ⟨fun t h => (nomatch h), fun f t h => by cases h; exact KeepsPlace.writeSw s r⟩
  case co =>
    refine ⟨fun t h => ?_, fun f t h => nomatch h⟩
    cases h
    split <;> exact ⟨rfl, rfl, id⟩
  case spare cmd =>
    refine ⟨fun t h => ?_, fun f t h => nomatch h⟩
    cases h
    exact (KeepsPlace.adoptSpare s _).trans ⟨rfl, rfl, id⟩
  all_goals exact ⟨fun t h => by cases h; exact ⟨rfl, rfl, id⟩, fun f t h => nomatch h⟩

theorem KeepsPlace.input (s : State) (c : InCmd) : KeepsPlace s (s.input c).2 := by
  cases c
  case ci =>
    unfold State.input
    dsimp only
    split <;> exact ⟨rfl, rfl, id⟩
  case spare cmd => exact (KeepsPlace.adoptSpare s _).trans ⟨rfl, rfl, id⟩
  all_goals exact ⟨rfl, rfl, id⟩

theorem KeepsPlace.physWrite (s : State) (pa : Nat) (w : Word) : KeepsPlace s (s.physWrite pa w) :=
  ⟨rfl, rfl, fun h => Memory.wf_put _ _ _ (Memory.wf_put _ _ _ h)⟩

/-! ### One command of the chain (40_io.md R302) -/

section
variable {base step sel data : Word} {n : BitVec 4} {rest : List (BitVec 4)} {s : State}

theorem State.vioChain_skip (h : stdBit sel n = false) :
    State.vioChain base step sel (n :: rest) data s = State.vioChain base step sel rest data s := by
  rw [State.vioChain]
  exact if_neg (Bool.eq_false_iff.1 h)

variable (hsel : stdBit sel n = true)
include hsel

theorem State.vioChain_missing (hc : xioCommand s.cfg (vioCommand base step n) = none) :
    State.vioChain base step sel (n :: rest) data s = .next (s.raiseIllegalIo 2) := by
  rw [State.vioChain, if_pos hsel, hc]

section
variable {c : OutCmd} (hc : xioCommand s.cfg (vioCommand base step n) = some (.output c))
include hc

theorem State.vioChain_read_fault {f : FaultReq} (hr : s.read data = .error (.fault f)) :
    State.vioChain base step sel (n :: rest) data s = .next (s.turn.raise f) := by
  rw [State.vioChain, if_pos hsel, hc]
  exact State.readThen_fault hr

theorem State.vioChain_output {w : Word} {t : State} (hr : s.read data = .ok w) (hout : s.turn.output c w = .done t) :
    State.vioChain base step sel (n :: rest) data s = State.vioChain base step sel rest (data + 1) t := by
  rw [State.vioChain, if_pos hsel, hc]
  dsimp only
  rw [State.readThen_ok hr, hout]

theorem State.vioChain_output_fault {w : Word} {f : FaultReq} {t : State} (hr : s.read data = .ok w)
    (hout : s.turn.output c w = .faulted f t) :
    State.vioChain base step sel (n :: rest) data s = .next (t.raise f) := by
  rw [State.vioChain, if_pos hsel, hc]
  dsimp only
  rw [State.readThen_ok hr, hout]

end

theorem State.vioChain_input {c : InCmd} (hc : xioCommand s.cfg (vioCommand base step n) = some (.input c)) :
    State.vioChain base step sel (n :: rest) data s =
      (s.input c).2.store [(data, (s.input c).1)] fun t => State.vioChain base step sel rest (data + 1) t := by
  rw [State.vioChain, if_pos hsel, hc]

end

/-! ### The selected commands in rising order -/

/-- The bits of a select word that are not set leave no trace in the chain. -/
theorem State.vioChain_filter (base step sel : Word) :
    ∀ (bits : List (BitVec 4)) (data : Word) (s : State),
      State.vioChain base step sel bits data s = State.vioChain base step sel (bits.filter (stdBit sel)) data s
  | [], _, _ => rfl
  | n :: rest, data, s => by
    have ih := State.vioChain_filter base step sel rest
    cases hsel : stdBit sel n with
    | false =>
      have hfilter : (n :: rest).filter (stdBit sel) = rest.filter (stdBit sel) :=
        List.filter_cons_of_neg (Bool.eq_false_iff.1 hsel)
      rw [State.vioChain_skip hsel, hfilter, ih]
    | true =>
      have hfilter : (n :: rest).filter (stdBit sel) = n :: rest.filter (stdBit sel) := List.filter_cons_of_pos hsel
      rw [hfilter, State.vioChain, State.vioChain]
      simp only [ih]

/-- The numbers of the bits set in a select word, in rising order. -/
def selectedBits (sel : Word) : List Nat := (List.range 16).filter fun k => sel.getLsbD (15 - k)

theorem stdBit_ofNat {k : Nat} (hk : k < 16) (sel : Word) : stdBit sel (BitVec.ofNat 4 k) = sel.getLsbD (15 - k) := by
  rw [stdBit, BitVec.toNat_ofNat, Nat.mod_eq_of_lt hk]

theorem vectorBits_filter (sel : Word) : vectorBits.filter (stdBit sel) = (selectedBits sel).map (BitVec.ofNat 4) := by
  have hall : vectorBits = (List.range 16).map (BitVec.ofNat 4) := rfl
  rw [hall, List.filter_map, selectedBits]
  refine congrArg (List.map (BitVec.ofNat 4)) (List.filter_congr fun k hk => ?_)
  exact stdBit_ofNat (List.mem_range.1 hk) sel

theorem mem_selectedBits {sel : Word} {k : Nat} (h : k ∈ selectedBits sel) :
    k < 16 ∧ stdBit sel (BitVec.ofNat 4 k) = true := by
  obtain ⟨hk, hsel⟩ := List.mem_filter.1 h
  have hk' := List.mem_range.1 hk
  exact ⟨hk', (stdBit_ofNat hk' sel).trans hsel⟩

theorem vioCommand_ofNat {k : Nat} (hk : k < 16) (base step : Word) :
    vioCommand base step (BitVec.ofNat 4 k) = base + BitVec.ofNat 16 k * step := by
  have hzero : (BitVec.ofNat 4 k).zeroExtend 16 = BitVec.ofNat 16 k := by
    rw [← BitVec.toNat_inj, BitVec.toNat_setWidth, BitVec.toNat_ofNat, BitVec.toNat_ofNat,
      Nat.mod_eq_of_lt hk]
  rw [vioCommand, hzero]

/-- What the command of bit `k`, the `j`-th of the chain, does from `a` to `t`: an output of the next data word, or an
input stored there. -/
def VioPerforms (c : Config) (base step da : Word) (k j : Nat) (a t : State) : Prop :=
  (∃ x w, xioCommand c (base + BitVec.ofNat 16 k * step) = some (.output x) ∧
      a.read (da + 2 + BitVec.ofNat 16 j) = .ok w ∧ (a.turns 1).output x w = .done t) ∨
    ∃ x pa, xioCommand c (base + BitVec.ofNat 16 k * step) = some (.input x) ∧
      (a.input x).2.writable (da + 2 + BitVec.ofNat 16 j) pa ∧ StoredInTurn (a.input x).2 [(pa, (a.input x).1)] t

/-- A word stored in its turn is what `physWrite` leaves. -/
theorem StoredInTurn.one {s t : State} {pa : Nat} {w : Word} (hw : s.mem.wf = true) (h : StoredInTurn s [(pa, w)] t) :
    t = s.turn.physWrite pa w := by
  obtain ⟨u, hu, rfl⟩ := h
  exact hu.mem_eq (State.turn_wf hw)

section
variable {c : Config} {base step da sel : Word}

/-- The chain past a command that is performed. -/
theorem VioPerforms.vioChain {k j : Nat} {rest : List (BitVec 4)} {a t : State} (hk : k < 16)
    (hsel : stdBit sel (BitVec.ofNat 4 k) = true) (hcfg : a.cfg = c) (hw : a.mem.wf = true)
    (h : VioPerforms c base step da k j a t) :
    State.vioChain base step sel (BitVec.ofNat 4 k :: rest) (da + 2 + BitVec.ofNat 16 j) a =
        State.vioChain base step sel rest (da + 2 + BitVec.ofNat 16 (j + 1)) t ∧ KeepsPlace a t := by
  have hnext : da + 2 + BitVec.ofNat 16 j + 1 = da + 2 + BitVec.ofNat 16 (j + 1) := (add_ofNat_succ _ _).symm
  rw [← hnext]
  subst hcfg
  obtain ⟨x, w, hx, hread, hout⟩ | ⟨x, pa, hx, hwrite, hstored⟩ := h
  · rw [← vioCommand_ofNat hk] at hx
    exact ⟨State.vioChain_output hsel hx hread hout, (KeepsPlace.turn a).trans ((KeepsPlace.output _ x w).1 t hout)⟩
  · rw [← vioCommand_ofNat hk] at hx
    have hkeep := KeepsPlace.input a x
    obtain rfl := hstored.one (hkeep.wf hw)
    rw [State.vioChain_input hsel hx, State.store_one _ _ hwrite]
    exact ⟨rfl, (hkeep.trans (KeepsPlace.turn _)).trans (KeepsPlace.physWrite _ _ _)⟩

/-- The chain past the commands that are performed in turn. -/
theorem vioChain_of_runs : ∀ {earlier : List Nat} (later : List Nat) {j : Nat} {a t : State},
    (∀ k ∈ earlier, k < 16 ∧ stdBit sel (BitVec.ofNat 4 k) = true) → a.cfg = c → a.mem.wf = true →
      RunsInTurn (VioPerforms c base step da) earlier j a t →
        State.vioChain base step sel ((earlier ++ later).map (BitVec.ofNat 4)) (da + 2 + BitVec.ofNat 16 j) a =
            State.vioChain base step sel (later.map (BitVec.ofNat 4))
              (da + 2 + BitVec.ofNat 16 (j + earlier.length)) t ∧
          KeepsPlace a t
  | [], later, j, a, t, _, _, _, h => by
    obtain rfl : t = a := h
    exact ⟨rfl, rfl, rfl, id⟩
  | k :: earlier, later, j, a, t, hbits, hcfg, hw, h => by
    obtain ⟨u, hperform, hrest⟩ := h
    obtain ⟨hk, hsel⟩ := hbits k List.mem_cons_self
    obtain ⟨hchain, hkeep⟩ := hperform.vioChain (rest := (earlier ++ later).map (BitVec.ofNat 4)) hk hsel hcfg hw
    obtain ⟨hchain', hkeep'⟩ := vioChain_of_runs later (fun k hk => hbits k (List.mem_cons_of_mem _ hk))
      (hkeep.cfg.trans hcfg) (hkeep.wf hw) hrest
    refine ⟨?_, hkeep.trans hkeep'⟩
    have hlength : j + (k :: earlier).length = j + 1 + earlier.length := by
      rw [List.length_cons]
      omega
    rw [hlength, ← hchain']
    exact hchain

end

end Sys2Proof.Machine

/-! ### The statement -/

namespace Sys2Proof.Certificates

open Sys2Proof.Machine

/-- Settles O59: the chain past its earlier commands (`vioChain_of_runs`), then what the next one does. -/
theorem vectoredInputOutput : Obligations.VectoredInputOutput := by
  intro s ra rx addr base sel hps hw hbase hsel o u data cmd selected performs faulted
  have hu := KeepsPlace.turns 2 s
  have huw : u.mem.wf = true := hu.wf hw
  have hexec : o = State.vioChain base (s.reg ra) sel (selected.map (BitVec.ofNat 4)) (data 0) u := by
    have hvio : o = execVio ra rx addr s := rfl
    have hsel' : s.turn.read (s.daLong addr rx + 1) = .ok sel := hsel
    have hreg : s.turn.turn.reg ra = s.reg ra := by rw [State.turn_reg, State.turn_reg]
    have hdata : data 0 = s.daLong addr rx + 2 := BitVec.add_zero _
    rw [hvio, execVio, if_neg (not_not.2 hps), hdata]
    dsimp only
    rw [State.readThen_ok hbase, State.readThen_ok hsel', hreg, State.vioChain_filter, vectorBits_filter]
    rfl
  have hchain {earlier later : List Nat} {t : State} (hbits : selected = earlier ++ later)
      (hruns : RunsInTurn performs earlier 0 u t) :
      o = State.vioChain base (s.reg ra) sel (later.map (BitVec.ofNat 4)) (data earlier.length) t ∧ KeepsPlace u t := by
    have hmem (k : Nat) (hk : k ∈ earlier) := mem_selectedBits (sel := sel) (k := k)
      (show k ∈ selected from hbits ▸ List.mem_append_left later hk)
    obtain ⟨heq, hkeep⟩ := vioChain_of_runs (base := base) (step := s.reg ra) (da := s.daLong addr rx) later hmem hu.cfg
      huw hruns
    rw [hexec, hbits]
    rw [Nat.zero_add] at heq
    exact ⟨heq, hkeep⟩
  have hends (t : State) (hic : t.ic = s.ic) : Host.Outcome.next (t.advance 2) = o ↔
    o = .next { t with ic := s.ic + 2 } := by
    rw [← hic]
    exact eq_comm
  have hnext {earlier later : List Nat} {k : Nat} {t : State} (hbits : selected = earlier ++ k :: later)
      (hruns : RunsInTurn performs earlier 0 u t) :
      o = State.vioChain base (s.reg ra) sel (BitVec.ofNat 4 k :: later.map (BitVec.ofNat 4)) (data earlier.length) t ∧
        stdBit sel (BitVec.ofNat 4 k) = true ∧ (∀ x, cmd k = x →
          xioCommand t.cfg (vioCommand base (s.reg ra) (BitVec.ofNat 4 k)) = x) ∧ KeepsPlace s t := by
    obtain ⟨heq, hkeep⟩ := hchain hbits hruns
    obtain ⟨hk, hset⟩ := mem_selectedBits (sel := sel) (k := k)
      (show k ∈ selected from hbits ▸ List.mem_append_right earlier List.mem_cons_self)
    refine ⟨heq, hset, fun x hx => ?_, hu.trans hkeep⟩
    rw [vioCommand_ofNat hk, hkeep.cfg, hu.cfg]
    exact hx
  refine ⟨fun hnone => ?none, fun t hruns => ?all, fun k c pa hone hc ⟨hg, htranslate⟩ => ?single,
    fun earlier k later t hbits hruns => ?next⟩
  case none =>
    obtain ⟨heq, -⟩ := hchain (earlier := []) (later := []) hnone rfl
    have hafter := u.advance_eq_after 2
    have hureg : u.reg = s.reg := State.turns_reg 2 s
    have hucs : u.cs = s.cs := State.turns_cs 2 s
    rw [hureg, hucs, hu.ic] at hafter
    exact heq.trans (congrArg Host.Outcome.next hafter)
  case all =>
    obtain ⟨heq, hkeep⟩ := hchain (later := []) (List.append_nil _).symm hruns
    exact (hends t (hkeep.ic.trans hu.ic)).1 heq.symm
  case single =>
    obtain ⟨heq, hset, hcommand, hplace⟩ := hnext (earlier := []) (later := []) hone rfl
    have hkeep := hplace.trans (KeepsPlace.input u c)
    obtain ⟨t, hstored, hstore⟩ := State.store_ok (ws := [(data 0, (u.input c).1)]) (pas := [pa])
      (fun t => State.vioChain base (s.reg ra) sel [] (data 0 + 1) t) (hkeep.wf hw) hg
      (congrArg (fun r => [r]) htranslate)
    refine ⟨t, hstored, (hends t (hstored.dmaOnly.ic.trans hkeep.ic)).1 ?_⟩
    exact ((heq.trans (State.vioChain_input hset (hcommand _ hc))).trans hstore).symm
  case next =>
    obtain ⟨heq, hset, hcommand, hplace⟩ := hnext hbits hruns
    refine ⟨fun hc => ?missing, fun c f hc hread => ?readFault, fun c w f v hc hread hout => ?outFault, ?storeFault⟩
    case missing =>
      rw [heq, State.vioChain_missing hset (hcommand _ hc), ← hplace.ic]
      rfl
    case readFault =>
      refine ⟨t.turn.free 0, ?_⟩
      rw [heq, State.vioChain_read_fault hset (hcommand _ hc) hread, State.raise_eq_afterFault, State.turn_cfg,
        hplace.cfg]
      rfl
    case outFault =>
      have hv := (hplace.trans (KeepsPlace.turns 1 t)).trans ((KeepsPlace.output (t.turns 1) c w).2 f v hout)
      refine ⟨v.free 0, ?_⟩
      rw [heq, State.vioChain_output_fault hset (hcommand _ hc) hread hout, State.raise_eq_afterFault, hv.cfg]
    case storeFault =>
      intro c f hc v hg htranslate
      have hv := (hplace.trans (KeepsPlace.input t c)).trans (KeepsPlace.turn v)
      refine ⟨(v.turn.spend 1).free 0, v.turn.freeCount + 2, ?_⟩
      rw [heq, State.vioChain_input hset (hcommand _ hc), State.store_one_fault _ _ hg htranslate,
        State.raise_spend_eq_afterFault, hv.cfg]
      rfl

end Sys2Proof.Certificates
end

section
/-! The signals and the DMA references of the outside, and the statement OutsideEvents. -/

namespace Sys2Proof.Machine

/-! ### Faults signalled (60_exceptions.md R800, R806) -/

/-- A fault set with the MFSR word `w`. -/
theorem State.setFault_designators (s : State) (b : FaultBit) (w : Word) :
    s.setFault ⟨b, some w⟩ = { s with
      ft := s.ft ||| bitMask (b.number s.cfg), pi := s.pi ||| 0x4000#16, spiHold := releaseHold 0x4000#16 s.spiHold
      mfsr := if s.cfg.hasMfsr then w else s.mfsr } := by
  cases h : s.cfg.hasMfsr with
  | true =>
    rw [State.setFault]
    exact if_pos h
  | false =>
    rw [State.setFault]
    exact if_neg (Bool.eq_false_iff.1 h)

theorem State.setFault_none (s : State) (b : FaultBit) :
    s.setFault ⟨b, none⟩ = { s with
      ft := s.ft ||| bitMask (b.number s.cfg), pi := s.pi ||| 0x4000#16,
        spiHold := releaseHold 0x4000#16 s.spiHold } := rfl

/-! ### Interrupts signalled (R812, R841) -/

theorem State.requestIf_eq (s : State) (b : Bool) (n : BitVec 4) :
    s.requestIf b n = { s with
      pi := if b then s.pi ||| BitVec.twoPow 16 (15 - n.toNat) else s.pi
      spiHold := if b then releaseHold (bitMask n) s.spiHold else s.spiHold } := by
  cases b with
  | false => rfl
  | true =>
    rw [← bitMask_eq_twoPow]
    rfl

/-- The interrupt numbers of a system interrupt signal (entry 36). -/
theorem externalInterrupt_eq :
    ∀ n : BitVec 4, externalInterrupt n = decide (n.toNat ∈ [0, 2, 8, 10, 11, 12, 13, 14, 15]) := by decide

/-- A counter comes to zero from its greatest value. -/
theorem add_one_beq_zero (v : Word) : (v + 1 == 0#16) = decide (v = 0xFFFF#16) := by
  rw [Bool.eq_iff_iff, beq_iff_eq, decide_eq_true_eq]
  constructor <;> intro h <;> bv_omega

section
variable {s : State} (h : s.cfg.hasTimers = true)
include h

theorem State.tickA_eq : s.tickA = if s.dev.taRun then { s with
    dev := { s.dev with ta := s.dev.ta + 1 }
    pi := if s.dev.ta = 0xFFFF#16 then s.pi ||| BitVec.twoPow 16 (15 - s.cfg.intTimerA.toNat) else s.pi
    spiHold := if s.dev.ta = 0xFFFF#16 then releaseHold (bitMask s.cfg.intTimerA) s.spiHold else s.spiHold }
      else s := by
  rw [State.tickA, h, Bool.true_and, add_one_beq_zero, State.requestIf_eq]
  simp only [decide_eq_true_eq]

theorem State.tickB_eq : s.tickB = if s.dev.tbRun then { s with
    dev := { s.dev with tb := s.dev.tb + 1 }
    pi := if s.dev.tb = 0xFFFF#16 then s.pi ||| BitVec.twoPow 16 (15 - s.cfg.intTimerB.toNat) else s.pi
    spiHold := if s.dev.tb = 0xFFFF#16 then releaseHold (bitMask s.cfg.intTimerB) s.spiHold else s.spiHold }
      else s := by
  rw [State.tickB, h, Bool.true_and, add_one_beq_zero, State.requestIf_eq]
  simp only [decide_eq_true_eq]

end

theorem State.ticks_absent {s : State} (h : s.cfg.hasTimers = false) : s.tickA = s ∧ s.tickB = s := by
  rw [State.tickA, State.tickB, h]
  exact ⟨rfl, rfl⟩

/-! ### Channels (R846) -/

/-- The channel an IOIC shows once another requests: the one held, or one of highest priority. -/
theorem shownChannel_insert (held : Bool) (before : List (BitVec 7)) (number old : BitVec 7) :
    (∀ d, d ∈ before.insert number ↔ d = number ∨ d ∈ before) ∧
      (held = true → (if held then old else shownChannel (before.insert number) old) = old) ∧
      (held = false → (if held then old else shownChannel (before.insert number) old) ∈ before.insert number ∧
        ∀ d ∈ before.insert number,
          Config.channelRank d ≤ Config.channelRank (if held then old
            else shownChannel (before.insert number) old)) := by
  obtain ⟨-, hmem, hrank⟩ := shownChannel_spec (before.insert number) old
  refine ⟨fun d => List.mem_insert_iff, fun h => if_pos h, fun h => ?_⟩
  rw [if_neg (Bool.eq_false_iff.1 h)]
  exact ⟨hmem (List.ne_nil_of_mem (List.mem_insert_iff.2 (.inl rfl))), hrank⟩

/-! ### DMA references (R847) -/

theorem State.checkPhysical_ok_designators {s : State} {a : Agent} {k : RefKind} {d : Word} {pa q : Nat}
    (h : s.checkPhysical a k d pa = .ok q) (d' : Word) : s.checkPhysical a k d' pa = .ok q := by
  unfold State.checkPhysical at h ⊢
  split_ifs at h ⊢ <;> assumption

theorem State.checkPhysical_error_designators {s : State} {a : Agent} {k : RefKind} {d : Word} {pa : Nat} {b : FaultBit}
    (h : s.checkPhysical a k d pa = .error ⟨b, some d⟩) (d' : Word) :
    s.checkPhysical a k d' pa = .error ⟨b, some d'⟩ := by
  unfold State.checkPhysical at h ⊢
  split_ifs at h ⊢ <;> cases h <;> rfl

/-- The designators of a data reference have a zero IO bit too. -/
theorem designatorsOf_data_reserved (la : Word) (as : BitVec 4) : designatorsOf la false as &&& 0x0FF0#16 = 0#16 := by
  have hmask : 0x0FF0#16 = (0#4 ++ BitVec.allOnes 7 ++ BitVec.allOnes 1 ++ 0#4 : BitVec (4 + 7 + 1 + 4)) := rfl
  rw [hmask]
  refine BitVec.and_append.trans ?_
  rw [BitVec.and_append, BitVec.and_append, BitVec.and_zero, BitVec.and_zero, BitVec.zero_and]
  rfl

theorem State.dmaReference_no_group {s : State} {r : DmaRef} {la : Word} {as key : BitVec 4}
    (haddr : r.address = .logical la as key) (h : groupImplemented s.cfg as = false) : s.dmaReference r = s := by
  have hno : ¬(s.cfg.hasDma && s.dev.dmaEn && dmaGroupOk s.cfg r.address) = true := by
    rw [haddr, dmaGroupOk, h, Bool.and_false]
    exact Bool.false_ne_true
  exact if_neg hno

section
variable {s : State} {r : DmaRef} (hhas : s.cfg.hasDma = true) (hen : s.dev.dmaEn = true)
  (hgroup : dmaGroupOk s.cfg r.address = true)
include hhas hen hgroup

theorem State.dmaReference_enabled : s.dmaReference r =
    match r.action with
    | .read =>
      match s.dmaTranslate .read r.address with
      | .error f => (s.setFault f).spend 2
      | .ok pa => { s with dma := { s.dma with received := s.dma.received ++ [s.physRead pa] } }
    | .write w =>
      match s.dmaTranslate .write r.address with
      | .error f => (s.setFault f).spend 2
      | .ok pa => s.physWrite pa w := by
  have hok : (s.cfg.hasDma && s.dev.dmaEn && dmaGroupOk s.cfg r.address) = true := by rw [hhas, hen, hgroup]; rfl
  rw [State.dmaReference]
  exact if_pos hok

theorem State.dmaReference_read {pa : Nat} (ha : r.action = .read) (h : s.dmaTranslate .read r.address = .ok pa) :
    s.dmaReference r = { s with dma := { s.dma with received := s.dma.received ++ [s.physRead pa] } } := by
  rw [State.dmaReference_enabled hhas hen hgroup, ha]
  dsimp only
  rw [h]

theorem State.dmaReference_write {pa : Nat} {w : Word} (ha : r.action = .write w)
    (h : s.dmaTranslate .write r.address = .ok pa) : s.dmaReference r = s.physWrite pa w := by
  rw [State.dmaReference_enabled hhas hen hgroup, ha]
  dsimp only
  rw [h]

theorem State.dmaReference_fault {k : RefKind} {f : FaultReq} (hk : k = .read ∨ k = .write)
    (ha : k = .read ↔ r.action = .read) (h : s.dmaTranslate k r.address = .error f) :
    s.dmaReference r = (s.setFault f).spend 2 := by
  rw [State.dmaReference_enabled hhas hen hgroup]
  cases haction : r.action with
  | read =>
    obtain rfl := ha.2 haction
    dsimp only
    rw [h]
  | write w =>
    have hwrite : k = .write := hk.resolve_left fun hread => by
      have := ha.1 hread
      rw [haction] at this
      cases this
    subst hwrite
    dsimp only
    rw [h]

end

end Sys2Proof.Machine

/-! ### The statement -/

namespace Sys2Proof.Certificates

open Sys2Proof.Machine

/-- Settles O60: each signal by the lemma about it; a DMA reference by what its translation answers. -/
theorem outsideEvents : Obligations.OutsideEvents := by
  intro s asked faults bit shown reaches moves
  have hfaults (b : FaultBit) (w : Word) (n : Nat) :
      faults ((s.setFault ⟨b, some w⟩).spend n) (bitMask (b.number s.cfg)) w n := by
    rw [State.setFault_designators]
    rfl
  refine ⟨fun run ht => ?timers, fun ht => ?noTimers, fun number => ?channel, fun n => ?interrupt,
    fun la i as => ?parity, fun f hf => ?signal, fun r => ?dma, fun r rest hslots => ?turn,
    fun hslots => State.turn_of_no_slots hslots⟩
  case timers =>
    refine ⟨fun h => ?_, fun h => ?_⟩
    · rw [← h]
      exact State.tickA_eq ht
    · rw [← h]
      exact State.tickB_eq ht
  case noTimers => exact State.ticks_absent ht
  case channel =>
    refine ⟨_, _, _, _, shownChannel_insert _ _ _ _, shownChannel_insert _ _ _ _, ?_, ?_⟩
    · have hasked : s.pi ||| bitMask s.cfg.intIo1 = asked s.cfg.intIo1 := by rw [bitMask_eq_twoPow]
      rw [← hasked]
      rfl
    · have hasked : s.pi ||| bitMask s.cfg.intIo2 = asked s.cfg.intIo2 := by rw [bitMask_eq_twoPow]
      rw [← hasked]
      rfl
  case interrupt =>
    have happly : s.applyEvent (.interrupt n) = s.requestIf (externalInterrupt n) n := rfl
    rw [happly, State.requestIf_eq, externalInterrupt_eq]
    simp only [decide_eq_true_eq]
    rfl
  case parity =>
    refine ⟨fun hp => ?_, fun hp => ?_⟩
    · have hnone : (FaultSignal.parity la i as).exists s.cfg = false := hp
      exact if_neg (Bool.eq_false_iff.1 hnone)
    · have hsome : (FaultSignal.parity la i as).exists s.cfg = true := hp
      have happly : s.applyEvent (.fault (.parity la i as)) =
        (s.setFault ⟨.parity, some (designatorsOf la i as)⟩).spend 0 :=
        if_pos hsome
      rw [happly]
      exact hfaults .parity _ 0
  case signal =>
    have hbit (b : FaultBit) :
        faults (s.setFault ⟨b, none⟩) (BitVec.twoPow 16 (15 - (b.number s.cfg).toNat)) s.mfsr 0 := by
      rw [← bitMask_eq_twoPow, State.setFault_none]
      simp only [faults, ite_self, Nat.add_zero]
    cases f with
    | parity la i as => exact absurd rfl (hf la i as)
    | pioParity => exact hbit .pioParity
    | dmaParity => exact hbit .dmaParity
    | pioTransmission => exact hbit .pioTransmission
    | spare7 => exact hbit .spare7
    | bite => exact hbit .bite
    | spareBite14 => exact hbit .spareBite14
    | spareBite15 => exact hbit .spareBite15
  case dma =>
    refine ⟨fun h => ?_, fun hhas hen hgroup => ?_⟩
    · obtain h | h | ⟨la, as, key, haddr, hgroup⟩ := h
      · exact State.dmaReference_disabled (.inl h) r
      · exact State.dmaReference_disabled (.inr h) r
      · exact State.dmaReference_no_group haddr hgroup
    have hok : dmaGroupOk s.cfg r.address = true := by
      cases haddr : r.address with
      | physical pa => rfl
      | logical la as key => exact hgroup la as key haddr
    refine ⟨fun pa hw hreach => ?_, fun la as key k f haddr hk ha h => ?_, fun pa k b haddr hk ha h => ?_⟩
    · obtain ⟨address, action⟩ := r
      cases action with
      | read =>
        refine State.dmaReference_read hhas hen hok rfl ?_
        cases address with
        | physical q => exact State.checkPhysical_ok_designators hreach _
        | logical la as key => exact hreach
      | write w =>
        have hwrite : s.applyEvent (.dma ⟨address, .write w⟩) = s.physWrite pa w := by
          refine State.dmaReference_write hhas hen hok rfl ?_
          cases address with
          | physical q => exact State.checkPhysical_ok_designators hreach _
          | logical la as key => exact hreach
        rw [hwrite]
        exact Written.physWrite pa w hw
    · obtain ⟨b, rfl⟩ := State.translate_error h
      refine ⟨_, rfl, ?_⟩
      have hfault : s.applyEvent (.dma r) = _ := State.dmaReference_fault hhas hen hok hk ha (by rw [haddr]; exact h)
      rw [hfault]
      exact hfaults b _ 2
    · refine ⟨_, designatorsOf_data_reserved (s.free 0) ((s.free 1).extractLsb' 0 4), ?_⟩
      have hfault : s.applyEvent (.dma r) = _ := State.dmaReference_fault hhas hen hok hk ha
        (by rw [haddr]; exact State.checkPhysical_error_designators h _)
      rw [hfault]
      exact hfaults b _ 2
  case turn =>
    rw [State.turn, hslots]
    rfl

end Sys2Proof.Certificates
end

section
/-! NOP, BPT and the built-in functions, and the statement MiscInstructions. -/

namespace Sys2Proof.Machine

/-! ### The words of a built-in function (49_logic_compare_misc.md R794) -/

/-- Words that are fetched one after the other are passed on, in the state their references leave. -/
theorem State.fetchThen_ok (k : List Word → State → Out) :
    ∀ {ws : List Word} {la : Word} (before : List Word) {s : State},
      (∀ j (h : j < ws.length), (s.turns j).fetch (la + BitVec.ofNat 16 j) = .ok ws[j]) →
        State.fetchThen k ws.length la before s = k (before ++ ws) (s.turns ws.length)
  | [], la, before, s, _ => by
    rw [List.append_nil]
    rfl
  | w :: rest, la, before, s, h => by
    have hfirst : s.fetch la = .ok w := by
      have h0 := h 0 (Nat.zero_lt_succ _)
      rwa [BitVec.add_zero] at h0
    have hrest : ∀ j (hj : j < rest.length), (s.turn.turns j).fetch (la + 1 + BitVec.ofNat 16 j) = .ok rest[j] := by
      intro j hj
      have hj' := h (j + 1) (Nat.succ_lt_succ hj)
      have haddr : la + BitVec.ofNat 16 (j + 1) = la + 1 + BitVec.ofNat 16 j := by
        rw [add_ofNat_succ, BitVec.add_assoc, BitVec.add_assoc, BitVec.add_comm (BitVec.ofNat 16 j)]
      rwa [haddr] at hj'
    have ih := State.fetchThen_ok k (before ++ [w]) hrest
    rw [List.length_cons, State.fetchThen, hfirst]
    dsimp only
    rw [ih, List.append_assoc]
    rfl

/-! ### What the user's function may change (entry 25) -/

theorem Memory.legal_iff (m : Memory) : m.legal = true ↔ memoryOk m := by
  rw [Memory.legal, Bool.and_eq_true]
  exact Iff.rfl

/-- The address state fault of what the user's function establishes. -/
theorem State.asFault_eq (u : State) (o : Option State) :
    u.asFault o = if (u.adopt o).as ≠ u.as ∧ asLegal u.cfg (u.adopt o).as = false then some addressStateFault
      else none := by
  cases o with
  | none => exact (if_neg fun h => h.1 rfl).symm
  | some v => rfl

/-- The fault of the user, but for the illegal instruction's. -/
theorem State.userFault_some {u : State} {op : UserOp} {b : FaultBit} {w : Word}
    (h : Config.userFaults op u = some (b, w))
    (hb : b ≠ .illegalInstruction) :
    u.userFault op = some ⟨b, if b ∈ [FaultBit.cpuProtect, .dmaProtect, .parity, .illegalAddress] then
      some (w &&& 0xF01F#16) else none⟩ := by
  rw [State.userFault, h]
  cases b
  case illegalInstruction => exact absurd rfl hb
  all_goals rfl

theorem State.userFault_none {u : State} {op : UserOp}
    (h : Config.userFaults op u = none ∨ ∃ w, Config.userFaults op u = some (.illegalInstruction, w)) :
    u.userFault op = u.asFault (Config.userState op u) := by
  rw [State.userFault]
  obtain h | ⟨w, h⟩ := h <;> rw [h]

/-- What a state after the user's function has of the user's state `v`, as the statement lists it. -/
theorem State.take_fields (u v : State) {page : Word → Word} (hpage : ∀ w, page w = pageValue u.cfg w) :
    let t := u.take v
    t.regs = v.regs ∧ t.sw = v.sw ∧ t.ft = u.ft &&& v.ft ∧
      t.mask = v.mask ∧ t.pi = v.pi &&& (u.pi ||| 0xBFFF#16) ∧ t.ien = v.ien ∧
      t.enblPending = v.enblPending ∧ t.mfsr = v.mfsr &&& 0xF01F#16 ∧
      t.spiHold = releaseHold (v.pi &&& ~~~u.pi) u.spiHold ∧
      (memoryOk v.mem → t.mem = v.mem) ∧ (¬memoryOk v.mem → t.mem = u.mem) ∧
      t.dev = { v.dev with outputs := u.dev.outputs ++ v.dev.outputs } ∧
      (∀ p : Fin 256, t.ctl.iPage[p] = page v.ctl.iPage[p] ∧ t.ctl.oPage[p] = page v.ctl.oPage[p]) ∧
      t.ctl.mpr = v.ctl.mpr ∧ t.ctl.mprotEn = v.ctl.mprotEn ∧ t.ctl.suromEn = v.ctl.suromEn ∧
      t.ctl.badParity = u.ctl.badParity ∧ t.cfg = u.cfg ∧ t.rom = u.rom ∧ t.ic = u.ic ∧
      t.halted = u.halted ∧ t.schedule = u.schedule ∧ t.dma = u.dma ∧ t.raised = u.raised ∧
      t.freeCount = u.freeCount ∧ t.resumeIc = u.resumeIc := by
  have hmap (l : Vector Word 256) (p : Fin 256) : (l.map (pageValue u.cfg))[p] = page l[p] := by
    rw [hpage]
    exact Vector.getElem_map _ _
  refine ⟨rfl, rfl, rfl, rfl, rfl, rfl, rfl, rfl, rfl, fun h => ?_, fun h => ?_, rfl,
    fun p => ⟨hmap _ p, hmap _ p⟩, rfl, rfl, rfl, rfl, rfl, rfl, rfl, rfl, rfl, rfl, rfl, rfl, rfl⟩
  · exact if_pos ((Memory.legal_iff _).2 h)
  · exact if_neg fun hl => h ((Memory.legal_iff _).1 hl)

theorem State.adopt_ic (u : State) (o : Option State) : (u.adopt o).ic = u.ic := by
  cases o <;> rfl

theorem State.adopt_cfg (u : State) (o : Option State) : (u.adopt o).cfg = u.cfg := by
  cases o <;> rfl

/-- The end of a built-in function that the configuration defines, once its words are fetched. -/
theorem exec_builtin_defined {s : State} {opex : BitVec 8} {n : Nat} {ws : List Word}
    (h : s.cfg.builtins.lookup opex = some n) (hlen : ws.length = n)
    (hfetch : ∀ k (h : k < ws.length), (s.turns k).fetch (s.ic + 1 + BitVec.ofNat 16 k) = .ok ws[k]) :
    exec (.builtin opex) s =
      match (s.turns n).userFault (.builtin opex ws) with
      | some f =>
        .next (if f.bit = .illegalIo then
          ((s.turns n).adopt (Config.userState (.builtin opex ws) (s.turns n))).raiseIllegalIo (BitVec.ofNat 16 (n + 1))
          else ((s.turns n).adopt (Config.userState (.builtin opex ws) (s.turns n))).raise f)
      | none => .next (((s.turns n).adopt (Config.userState (.builtin opex ws) (s.turns n))).setIc
          ((Config.userTarget (.builtin opex ws) (s.turns n)).getD ((s.turns n).ic + BitVec.ofNat 16 (n + 1)))) := by
  have hexec : exec (.builtin opex) s = execBuiltin opex s := rfl
  subst hlen
  rw [hexec, execBuiltin, h]
  exact State.fetchThen_ok _ [] hfetch

end Sys2Proof.Machine

/-! ### The statement -/

namespace Sys2Proof.Certificates

open Sys2Proof.Machine

/-- Settles O32: a built-in function ends as its user's fault, if there is one, says. -/
theorem miscInstructions : Obligations.MiscInstructions := by
  intro s opex
  refine ⟨?nop, fun h => ?bptOff, fun hc hconn => ?bpt, fun h => ?undefined, fun n ws h hlen hfetch => ?defined⟩
  case nop => exact congrArg Host.Outcome.next (s.advance_eq_after 1)
  case bptOff =>
    have hoff : ¬(s.cfg.hasConsole && s.cfg.consoleConnected) = true := by
      obtain h | h := h <;> simp [h]
    exact congrArg Host.Outcome.next ((if_neg hoff).trans (s.advance_eq_after 1))
  case bpt =>
    have hon : (s.cfg.hasConsole && s.cfg.consoleConnected) = true := by rw [hc, hconn]; rfl
    exact congrArg Host.Outcome.next ((if_pos hon).trans (State.advance_eq_after _ 1))
  case undefined =>
    have hexec : exec (.builtin opex) s = .next (s.raise illegalInstruction) := execBuiltin_undefined h
    refine ⟨s.free 0, ?_⟩
    rw [hexec, State.raise_eq_afterFault, bitMask_eq_twoPow]
    rfl
  case defined =>
    intro u op page
    have hcfg : u.cfg = s.cfg := State.turns_cfg n s
    have has : u.as = s.as := congrArg asOf (DmaOnly.turns n s).sw
    have hpage (w : Word) : page w = pageValue u.cfg w := by
      rw [hcfg, pageValue]
      simp only [page]
      cases s.cfg.mmu <;> rfl
    obtain ⟨t, ht⟩ : ∃ t, t = u.adopt (Config.userState op u) := ⟨_, rfl⟩
    have htcfg : t.cfg = s.cfg := by rw [ht, State.adopt_cfg, hcfg]
    have htic : t.ic = s.ic := by rw [ht, State.adopt_ic, State.turns_ic]
    have hexec := exec_builtin_defined h hlen hfetch
    have hnext : s.ic + BitVec.ofNat 16 (n + 1) = s.ic + 1 + BitVec.ofNat 16 n := by
      rw [add_ofNat_succ, BitVec.add_assoc, BitVec.add_assoc, BitVec.add_comm (BitVec.ofNat 16 n)]
    have hfault {b : FaultBit} {d : Option Word} (hf : u.userFault op = some ⟨b, d⟩) (hb : b ≠ .illegalIo) :
        exec (.builtin opex) s = .next (t.afterFault (bitMask (b.number s.cfg)) b d (t.free 0)) := by
      rw [hf, ← ht] at hexec
      dsimp only at hexec
      rw [hexec, if_neg hb, State.raise_eq_afterFault, htcfg]
    have hplain (hf : u.userFault op = u.asFault (Config.userState op u)) :
        if t.as ≠ s.as ∧ asLegal s.cfg t.as = false then
          ∃ ic : Word, exec (.builtin opex) s = .next (t.afterFault 0x0010#16 .addressState none ic)
        else
          exec (.builtin opex) s = .next { t with
            ic := match Config.userTarget op u with
              | some a => a
              | none => s.ic + 1 + BitVec.ofNat 16 n } := by
      rw [State.asFault_eq, ← ht, has, hcfg] at hf
      split
      · rename_i hbad
        rw [if_pos hbad] at hf
        exact ⟨_, hfault hf nofun⟩
      · rename_i hgood
        rw [if_neg hgood] at hf
        rw [hf, ← ht, State.turns_ic, hnext] at hexec
        dsimp only at hexec
        rw [hexec]
        cases Config.userTarget op u <;> rfl
    refine ⟨t, ?_, ?_⟩
    · rw [ht]
      cases Config.userState op u with
      | none => rfl
      | some v => exact State.take_fields u v hpage
    · split
      · rename_i hf
        exact hplain (State.userFault_none (.inl hf))
      · rename_i w hf
        exact hplain (State.userFault_none (.inr ⟨w, hf⟩))
      · rename_i w hf
        have huser := State.userFault_some hf nofun
        rw [huser, ← ht] at hexec
        dsimp only at hexec
        rw [hexec, if_pos rfl, ← hnext, ← htic]
        rfl
      · rename_i b w hill hio hf
        exact ⟨_, hfault (State.userFault_some hf hill) hio⟩

end Sys2Proof.Certificates
end

section
/-! The word references of the instructions with operands in memory, the fault of each, and the statement
OperandFaultsStop. -/

namespace Sys2Proof.Machine

/-! ### Outcomes that begin with a reference -/

/-- The outcome `o` goes on from `s` with a read of the word at `a`. -/
def ReadsAt (s : State) (a : Word) (o : Out) : Prop := ∃ k, o = s.readThen a k

/-- The outcome `o` goes on from `s` with a store of one word at `a`. -/
def StoresAt (s : State) (a : Word) (o : Out) : Prop := ∃ v k, o = s.store [(a, v)] k

/-- The outcome `o` goes on from `s` with reads of the word at `a` and of the one after it. -/
structure ReadsTwo (s : State) (a : Word) (o : Out) : Prop where
  first : ReadsAt s a o
  second : ∀ w, s.read a = .ok w → ReadsAt (s.turns 1) (a + 1) o

/-- The outcome `o` goes on from `s` with reads of the word at `a` and of the two after it. -/
structure ReadsThree (s : State) (a : Word) (o : Out) : Prop extends ReadsTwo s a o where
  third : ∀ w w', s.read a = .ok w → (s.turns 1).read (a + 1) = .ok w' → ReadsAt (s.turns 2) (a + 2) o

section
variable {s : State} {a w w' : Word} {o : Out}

theorem ReadsAt.ok {k : Word → State → Out} (ho : o = s.readThen a k) (h : s.read a = .ok w) : o = k w s.turn :=
  ho.trans (State.readThen_ok h)

theorem readsTwo_of_readThen2 (k : Long → State → Out) (h : o = s.readThen2 a k) : ReadsTwo s a o :=
  ⟨⟨_, h⟩, fun _ hw => ⟨_, ReadsAt.ok h hw⟩⟩

theorem readsThree_of_readThen3 (k : Ext → State → Out) (h : o = s.readThen3 a k) : ReadsThree s a o :=
  ⟨⟨⟨_, h⟩, fun _ hw => ⟨_, ReadsAt.ok h hw⟩⟩, fun _ _ hw hw' => ⟨_, ReadsAt.ok (ReadsAt.ok h hw) hw'⟩⟩

/-! ### Their faults (60_exceptions.md R806) -/

variable {f : FaultReq}

/-- A fault raised in a state that differs from `s` by DMA only. -/
theorem State.raise_turns_eq_afterFault (s : State) (n : Nat) (f : FaultReq) :
    (s.turns n).raise f = (s.turns n).afterFault (bitMask (f.bit.number s.cfg)) f.bit f.designators
      ((s.turns n).free 0) := by
  rw [State.raise_eq_afterFault, State.turns_cfg]

theorem State.turns_turn : ∀ (n : Nat) (s : State), (s.turns n).turn = s.turns (n + 1)
  | 0, _ => rfl
  | n + 1, s => State.turns_turn n s.turn

/-- The read that faults ends the instruction. -/
theorem ReadsAt.fault {n : Nat} (h : ReadsAt (s.turns n) a o) (hf : (s.turns n).read a = .error (.fault f)) :
    ∃ ic : Word, o = .next ((s.turns (n + 1)).afterFault (bitMask (f.bit.number s.cfg)) f.bit f.designators ic) := by
  obtain ⟨k, rfl⟩ := h
  rw [State.readThen_fault hf, State.turns_turn, State.raise_turns_eq_afterFault]
  exact ⟨_, rfl⟩

/-- The store that is refused ends the instruction. -/
theorem StoresAt.fault {n : Nat} (h : StoresAt (s.turns n) a o) (hg : groupImplemented s.cfg s.as = true)
    (hf : s.translate .cpu .write s.as (some s.ps) a = .error f) :
    ∃ ic : Word, o = .next { (s.turns (n + 1)).afterFault (bitMask (f.bit.number s.cfg)) f.bit f.designators ic with
      freeCount := (s.turns (n + 1)).freeCount + 2 } := by
  obtain ⟨v, k, rfl⟩ := h
  have hdma := DmaOnly.turns n s
  have has : (s.turns n).as = s.as := congrArg asOf hdma.sw
  have hps : (s.turns n).ps = s.ps := congrArg (fun w : Word => w.extractLsb' 4 4) hdma.sw
  have hg' : groupImplemented (s.turns n).cfg (s.turns n).as = true := by rw [hdma.cfg, has, hg]
  have hf' : (s.turns n).translate .cpu .write (s.turns n).as (some (s.turns n).ps) a = .error f := by
    rw [has, hps, State.translate_congr hdma.cfg hdma.ctl, hf]
  rw [State.store_one_fault _ _ hg' hf', State.turns_turn, State.raise_spend_eq_afterFault, State.turns_cfg]
  exact ⟨_, rfl⟩

end

/-! ### The shapes of operand rules -/

section
variable {s : State} {a addr p w : Word} {rx r : Reg}

/-- The outcome `o` goes on with a read through the pointer at the long address. -/
def ReadsThrough (s : State) (addr : Word) (rx : Reg) (o : Out) : Prop :=
  ∀ p, s.read (s.daLong addr rx) = .ok p → ReadsAt (s.turns 1) p o

theorem readsAt_word {k : Word → State → Out} : ReadsAt s a (s.readThen a k) := ⟨k, rfl⟩

theorem readsAt_pointer {k : Word → State → Out} : ReadsAt s (s.daLong addr rx) (s.pointerThen addr rx k) := ⟨k, rfl⟩

theorem readsAt_indirect {k : Word → State → Out} : ReadsAt s (s.daLong addr rx) (s.indirectThen addr rx k) := by
  rw [State.indirectThen]
  exact readsAt_pointer

theorem readsAt_indirect2 {k : Long → State → Out} : ReadsAt s (s.daLong addr rx) (s.indirectThen2 addr rx k) := by
  rw [State.indirectThen2]
  exact readsAt_pointer

theorem readsAt_modify {f : Word → Word} : ReadsAt s a (s.modifyWord f a) := ⟨_, rfl⟩

theorem readsAt_byte {f : Word → Byte → Word} : ReadsAt s a (s.storeByte f r a) := ⟨_, rfl⟩

theorem readsAt_sum {f : Word → Sum 16} : ReadsAt s a (s.sumMemory f a) := ⟨_, rfl⟩

theorem readsTwo {k : Long → State → Out} : ReadsTwo s a (s.readThen2 a k) := readsTwo_of_readThen2 k rfl

theorem readsThree {k : Ext → State → Out} : ReadsThree s a (s.readThen3 a k) := readsThree_of_readThen3 k rfl

theorem readsThrough_pointer {k : Word → State → Out} (hk : ∀ p t, ReadsAt t p (k p t)) :
    ReadsThrough s addr rx (s.pointerThen addr rx k) := by
  intro p h
  rw [State.pointerThen, State.readThen_ok h]
  exact hk p s.turn

theorem readsThrough_indirect {k : Word → State → Out} : ReadsThrough s addr rx (s.indirectThen addr rx k) := by
  rw [State.indirectThen]
  exact readsThrough_pointer fun _ _ => readsAt_word

theorem readsThrough_indirect2 {k : Long → State → Out} : ReadsThrough s addr rx (s.indirectThen2 addr rx k) := by
  rw [State.indirectThen2]
  exact readsThrough_pointer fun _ _ => readsTwo.first

theorem readsThrough_modify {f : Word → Word} :
    ReadsThrough s addr rx (s.pointerThen addr rx fun da t => t.modifyWord f da) :=
  readsThrough_pointer fun _ _ => readsAt_modify

theorem readsThrough_byte {f : Word → Byte → Word} :
    ReadsThrough s addr rx (s.pointerThen addr rx fun da t => t.storeByte f r da) :=
  readsThrough_pointer fun _ _ => readsAt_byte

theorem storesAt_modify {f : Word → Word} (h : s.read a = .ok w) : StoresAt (s.turns 1) a (s.modifyWord f a) := by
  rw [State.modifyWord, State.readThen_ok h]
  exact ⟨_, _, rfl⟩

theorem storesAt_byte {f : Word → Byte → Word} (h : s.read a = .ok w) : StoresAt (s.turns 1) a (s.storeByte f r a) := by
  rw [State.storeByte, State.readThen_ok h]
  exact ⟨_, _, rfl⟩

theorem storesAt_sum {f : Word → Sum 16} (h : s.read a = .ok w) : StoresAt (s.turns 1) a (s.sumMemory f a) := by
  rw [State.sumMemory, State.readThen_ok h]
  exact ⟨_, _, rfl⟩

theorem storesAt_srm (h : s.read (s.daLong addr rx) = .ok w) :
    StoresAt (s.turns 1) (s.daLong addr rx) (execSrm r rx addr s) := by
  rw [execSrm, State.readThen_ok h, State.turn_daLong]
  exact ⟨_, _, rfl⟩

section
variable (hp : s.read (s.daLong addr rx) = .ok p) (hr : (s.turns 1).read p = .ok w)
include hp hr

theorem storesThrough_modify {f : Word → Word} :
    StoresAt (s.turns 2) p (s.pointerThen addr rx fun da t => t.modifyWord f da) := by
  rw [State.pointerThen, State.readThen_ok hp]
  exact storesAt_modify hr

theorem storesThrough_byte {f : Word → Byte → Word} :
    StoresAt (s.turns 2) p (s.pointerThen addr rx fun da t => t.storeByte f r da) := by
  rw [State.pointerThen, State.readThen_ok hp]
  exact storesAt_byte hr

end

end

/-! ### The instructions by their operands -/

/-- Instructions with one word at the long address: an operand, a pointer or a word that is changed. -/
def longWords (ra rx : Reg) (n : BitVec 4) (k : Nat) (addr : Word) : List Instr :=
  [.l ra rx addr, .li ra rx addr, .dli ra rx addr, .lub ra rx addr, .llb ra rx addr, .lubi ra rx addr,
    .llbi ra rx addr, .sb n rx addr, .rb n rx addr, .sbi n rx addr, .rbi n rx addr, .tb n rx addr, .tbi n rx addr,
    .tsb n rx addr, .sti ra rx addr, .stci n rx addr, .dsti ra rx addr, .srm ra rx addr, .stub ra rx addr,
    .stlb ra rx addr, .subi ra rx addr, .slbi ra rx addr, .a ra rx addr, .s ra rx addr, .incm k rx addr,
    .decm k rx addr, .ms ra rx addr, .m ra rx addr, .dv ra rx addr, .d ra rx addr, .or ra rx addr, .and ra rx addr,
    .xor ra rx addr, .n ra rx addr, .c ra rx addr]

/-- Instructions with a double word at the long address. -/
def longDoubles (ra rx : Reg) (addr : Word) : List Instr :=
  [.dl ra rx addr, .da ra rx addr, .ds ra rx addr, .dm ra rx addr, .dd ra rx addr, .fa ra rx addr, .fs ra rx addr,
    .fm ra rx addr, .fd ra rx addr, .fc ra rx addr, .cbl ra rx addr, .dc ra rx addr]

/-- Instructions with three words at the long address. -/
def longTriples (ra rx : Reg) (addr : Word) : List Instr :=
  [.efl ra rx addr, .efa ra rx addr, .efs ra rx addr, .efm ra rx addr, .efd ra rx addr, .efc ra rx addr]

/-- Instructions with a word at the base relative address. -/
def baseWords (br : Reg) (dspl : BitVec 8) : List Instr :=
  [.lb br dspl, .ab br dspl, .sbb br dspl, .mb br dspl, .db br dspl, .orb br dspl, .andb br dspl, .cb br dspl]

/-- Instructions with a double word at the base relative address. -/
def baseDoubles (br : Reg) (dspl : BitVec 8) : List Instr :=
  [.dlb br dspl, .fab br dspl, .fsb br dspl, .fmb br dspl, .fdb br dspl, .fcb br dspl]

/-- Instructions with a word at the indexed address. -/
def indexedWords (br rx : Reg) : List Instr :=
  [.lbx br rx, .abx br rx, .sbbx br rx, .mbx br rx, .dbx br rx, .orbx br rx, .andx br rx, .cbx br rx]

/-- Instructions with a double word at the indexed address. -/
def indexedDoubles (br rx : Reg) : List Instr :=
  [.dlbx br rx, .fabx br rx, .fsbx br rx, .fmbx br rx, .fdbx br rx, .fcbx br rx]

/-- Instructions that read a word through a pointer. -/
def pointedWords (ra rx : Reg) (n : BitVec 4) (addr : Word) : List Instr :=
  [.li ra rx addr, .dli ra rx addr, .lubi ra rx addr, .llbi ra rx addr, .sbi n rx addr, .rbi n rx addr,
    .tbi n rx addr, .subi ra rx addr, .slbi ra rx addr]

/-- Instructions that read the word at the long address and store it changed. -/
def changedWords (ra rx : Reg) (n : BitVec 4) (k : Nat) (addr : Word) : List Instr :=
  [.sb n rx addr, .rb n rx addr, .srm ra rx addr, .stub ra rx addr, .stlb ra rx addr, .incm k rx addr,
    .decm k rx addr]

/-- Instructions that read a word through a pointer and store it changed. -/
def pointedChanges (ra rx : Reg) (n : BitVec 4) (addr : Word) : List Instr :=
  [.sbi n rx addr, .rbi n rx addr, .subi ra rx addr, .slbi ra rx addr]

section
variable (s : State) (ra br rx : Reg) (n : BitVec 4) (k : Nat) (dspl : BitVec 8) (addr : Word)

/-- What holds of the rules of instructions holds of running them. -/
theorem forall_exec {P : Out → Prop} {is : List Instr} {os : List Out} (h : is.map (exec · s) = os)
    (hos : ∀ o ∈ os, P o) :
    ∀ i ∈ is, P (exec i s) :=
  fun _ hi => hos _ (h ▸ List.mem_map_of_mem (f := (exec · s)) hi)

theorem longWords_reads : ∀ i ∈ longWords ra rx n k addr, ReadsAt s (s.daLong addr rx) (exec i s) := by
  have hrules : (longWords ra rx n k addr).map (exec · s) =
      [execL ra rx addr s, execLi ra rx addr s, execDli ra rx addr s, execLub ra rx addr s, execLlb ra rx addr s,
        execLubi ra rx addr s, execLlbi ra rx addr s, execSb n rx addr s, execRb n rx addr s, execSbi n rx addr s,
        execRbi n rx addr s, execTb n rx addr s, execTbi n rx addr s, execTsb n rx addr s, execSti ra rx addr s,
        execStci n rx addr s, execDsti ra rx addr s, execSrm ra rx addr s, execStub ra rx addr s,
        execStlb ra rx addr s, execSubi ra rx addr s, execSlbi ra rx addr s, execA ra rx addr s, execS ra rx addr s,
        execIncm k rx addr s, execDecm k rx addr s, execMs ra rx addr s, execM ra rx addr s, execDv ra rx addr s,
        execD ra rx addr s, execOr ra rx addr s, execAnd ra rx addr s, execXor ra rx addr s, execN ra rx addr s,
        execC ra rx addr s] := rfl
  refine forall_exec s hrules ?_
  simp only [List.forall_mem_cons]
  exact ⟨readsAt_word, readsAt_indirect, readsAt_indirect2, readsAt_word, readsAt_word, readsAt_indirect,
    readsAt_indirect, readsAt_modify, readsAt_modify, readsAt_pointer, readsAt_pointer, readsAt_word,
    readsAt_indirect, readsAt_word, readsAt_pointer, readsAt_pointer, readsAt_pointer, readsAt_word, readsAt_byte,
    readsAt_byte, readsAt_pointer, readsAt_pointer, readsAt_word, readsAt_word, readsAt_sum, readsAt_sum,
    readsAt_word, readsAt_word, readsAt_word, readsAt_word, readsAt_word, readsAt_word, readsAt_word, readsAt_word,
    readsAt_word, List.forall_mem_nil _⟩

/-- CBL reads its limits as two operands of its own. -/
theorem execCbl_reads : ReadsTwo s (s.daLong addr rx) (execCbl ra rx addr s) where
  first := ⟨_, rfl⟩
  second w h := by
    rw [execCbl, State.readThen_ok h, State.turn_daLong]
    exact ⟨_, rfl⟩

theorem longDoubles_reads : ∀ i ∈ longDoubles ra rx addr, ReadsTwo s (s.daLong addr rx) (exec i s) := by
  have hrules : (longDoubles ra rx addr).map (exec · s) =
      [execDl ra rx addr s, execDa ra rx addr s, execDs ra rx addr s, execDm ra rx addr s, execDd ra rx addr s,
        execFa ra rx addr s, execFs ra rx addr s, execFm ra rx addr s, execFd ra rx addr s, execFc ra rx addr s,
        execCbl ra rx addr s, execDc ra rx addr s] := rfl
  refine forall_exec s hrules ?_
  simp only [List.forall_mem_cons]
  exact ⟨readsTwo, readsTwo, readsTwo, readsTwo, readsTwo, readsTwo, readsTwo, readsTwo, readsTwo, readsTwo,
    execCbl_reads s ra rx addr, readsTwo, List.forall_mem_nil _⟩

theorem longTriples_reads : ∀ i ∈ longTriples ra rx addr, ReadsThree s (s.daLong addr rx) (exec i s) := by
  have hrules : (longTriples ra rx addr).map (exec · s) =
      [execEfl ra rx addr s, execEfa ra rx addr s, execEfs ra rx addr s, execEfm ra rx addr s, execEfd ra rx addr s,
        execEfc ra rx addr s] := rfl
  refine forall_exec s hrules ?_
  simp only [List.forall_mem_cons]
  exact ⟨readsThree, readsThree, readsThree, readsThree, readsThree, readsThree, List.forall_mem_nil _⟩

theorem baseWords_reads : ∀ i ∈ baseWords br dspl, ReadsAt s (s.daBase br dspl) (exec i s) := by
  have hrules : (baseWords br dspl).map (exec · s) =
      [execLb br dspl s, execAb br dspl s, execSbb br dspl s, execMb br dspl s, execDb br dspl s, execOrb br dspl s,
        execAndb br dspl s, execCb br dspl s] := rfl
  refine forall_exec s hrules ?_
  simp only [List.forall_mem_cons]
  exact ⟨readsAt_word, readsAt_word, readsAt_word, readsAt_word, readsAt_word, readsAt_word, readsAt_word,
    readsAt_word, List.forall_mem_nil _⟩

theorem baseDoubles_reads : ∀ i ∈ baseDoubles br dspl, ReadsTwo s (s.daBase br dspl) (exec i s) := by
  have hrules : (baseDoubles br dspl).map (exec · s) =
      [execDlb br dspl s, execFab br dspl s, execFsb br dspl s, execFmb br dspl s, execFdb br dspl s,
        execFcb br dspl s] := rfl
  refine forall_exec s hrules ?_
  simp only [List.forall_mem_cons]
  exact ⟨readsTwo, readsTwo, readsTwo, readsTwo, readsTwo, readsTwo, List.forall_mem_nil _⟩

theorem indexedWords_reads : ∀ i ∈ indexedWords br rx, ReadsAt s (s.daIndexed br rx) (exec i s) := by
  have hrules : (indexedWords br rx).map (exec · s) =
      [execLbx br rx s, execAbx br rx s, execSbbx br rx s, execMbx br rx s, execDbx br rx s, execOrbx br rx s,
        execAndx br rx s, execCbx br rx s] := rfl
  refine forall_exec s hrules ?_
  simp only [List.forall_mem_cons]
  exact ⟨readsAt_word, readsAt_word, readsAt_word, readsAt_word, readsAt_word, readsAt_word, readsAt_word,
    readsAt_word, List.forall_mem_nil _⟩

theorem indexedDoubles_reads : ∀ i ∈ indexedDoubles br rx, ReadsTwo s (s.daIndexed br rx) (exec i s) := by
  have hrules : (indexedDoubles br rx).map (exec · s) =
      [execDlbx br rx s, execFabx br rx s, execFsbx br rx s, execFmbx br rx s, execFdbx br rx s,
        execFcbx br rx s] := rfl
  refine forall_exec s hrules ?_
  simp only [List.forall_mem_cons]
  exact ⟨readsTwo, readsTwo, readsTwo, readsTwo, readsTwo, readsTwo, List.forall_mem_nil _⟩

theorem pointedWords_reads : ∀ i ∈ pointedWords ra rx n addr, ReadsThrough s addr rx (exec i s) := by
  have hrules : (pointedWords ra rx n addr).map (exec · s) =
      [execLi ra rx addr s, execDli ra rx addr s, execLubi ra rx addr s, execLlbi ra rx addr s, execSbi n rx addr s,
        execRbi n rx addr s, execTbi n rx addr s, execSubi ra rx addr s, execSlbi ra rx addr s] := rfl
  refine forall_exec s hrules ?_
  simp only [List.forall_mem_cons]
  exact ⟨readsThrough_indirect, readsThrough_indirect2, readsThrough_indirect, readsThrough_indirect,
    readsThrough_modify, readsThrough_modify, readsThrough_indirect, readsThrough_byte, readsThrough_byte,
    List.forall_mem_nil _⟩

theorem changedWords_stores {w : Word} (hr : s.read (s.daLong addr rx) = .ok w) :
    ∀ i ∈ changedWords ra rx n k addr, StoresAt (s.turns 1) (s.daLong addr rx) (exec i s) := by
  have hrules : (changedWords ra rx n k addr).map (exec · s) =
      [execSb n rx addr s, execRb n rx addr s, execSrm ra rx addr s, execStub ra rx addr s, execStlb ra rx addr s,
        execIncm k rx addr s, execDecm k rx addr s] := rfl
  refine forall_exec s hrules ?_
  simp only [List.forall_mem_cons]
  exact ⟨storesAt_modify hr, storesAt_modify hr, storesAt_srm hr, storesAt_byte hr, storesAt_byte hr,
    storesAt_sum hr, storesAt_sum hr, List.forall_mem_nil _⟩

theorem pointedChanges_stores {p w : Word} (hp : s.read (s.daLong addr rx) = .ok p)
    (hr : (s.turns 1).read p = .ok w) : ∀ i ∈ pointedChanges ra rx n addr, StoresAt (s.turns 2) p (exec i s) := by
  have hrules : (pointedChanges ra rx n addr).map (exec · s) =
      [execSbi n rx addr s, execRbi n rx addr s, execSubi ra rx addr s, execSlbi ra rx addr s] := rfl
  refine forall_exec s hrules ?_
  simp only [List.forall_mem_cons]
  exact ⟨storesThrough_modify hp hr, storesThrough_modify hp hr, storesThrough_byte hp hr, storesThrough_byte hp hr,
    List.forall_mem_nil _⟩

end

/-! ### Instructions with rules of their own -/

section
variable {s : State} {ra br rx : Reg} {n : BitVec 4} {addr w : Word} {f : FaultReq}

theorem execJci_reads (h : jumpTaken n s.cs = true) : ReadsAt s (s.daLong addr rx) (execJci n rx addr s) := by
  rw [execJci, if_pos h]
  exact readsAt_pointer

theorem execMov_reads (h : s.reg (ra + 1) ≠ 0#16) : ReadsAt s (s.reg br) (execMov ra br s) := by
  rw [execMov, if_neg h]
  exact readsAt_word

theorem execMov_stores (h : s.reg (ra + 1) ≠ 0#16) (hr : s.read (s.reg br) = .ok w) :
    StoresAt (s.turns 1) (s.reg ra) (execMov ra br s) := by
  rw [execMov, if_neg h, State.readThen_ok hr, State.turn_reg]
  exact ⟨_, _, rfl⟩

theorem execSti_stores {p : Word} (hp : s.read (s.daLong addr rx) = .ok p) :
    StoresAt (s.turns 1) p (execSti ra rx addr s) := by
  rw [execSti, State.pointerThen, State.readThen_ok hp]
  exact ⟨_, _, rfl⟩

theorem execStci_stores {p : Word} (hp : s.read (s.daLong addr rx) = .ok p) :
    StoresAt (s.turns 1) p (execStci n rx addr s) := by
  rw [execStci, State.pointerThen, State.readThen_ok hp]
  exact ⟨_, _, rfl⟩

theorem execLst_reads (hps : s.ps = 0#4) : ReadsThree s (s.daLong addr rx) (execLst rx addr s) := by
  rw [execLst, if_neg (not_not.2 hps)]
  exact readsThree

theorem execLsti_reads (hps : s.ps = 0#4) : ReadsAt s (s.daLong addr rx) (execLsti rx addr s) := by
  rw [execLsti, if_neg (not_not.2 hps)]
  exact readsAt_pointer

theorem execLsti_reads_through (hps : s.ps = 0#4) {p : Word} (hp : s.read (s.daLong addr rx) = .ok p) :
    ReadsThree (s.turns 1) p (execLsti rx addr s) := by
  rw [execLsti, if_neg (not_not.2 hps), State.pointerThen, State.readThen_ok hp]
  exact readsThree

theorem execDli_reads_through {p : Word} (hp : s.read (s.daLong addr rx) = .ok p) :
    ReadsTwo (s.turns 1) p (execDli ra rx addr s) := by
  rw [execDli, State.indirectThen2, State.pointerThen, State.readThen_ok hp]
  exact readsTwo

/-! ### TSB (41_bit.md R335, entry 17) -/

/-- The write of TSB, which its read's reference makes too, is refused. -/
theorem execTsb_refused (hr : s.read (s.daLong addr rx) = .ok w)
    (hf : s.translate .cpu .write s.as (some s.ps) (s.daLong addr rx) = .error f) :
    execTsb n rx addr s =
      if f.bit = .cpuProtect then
        .next (((if s.turn.freeBit 0 then s.turn.setCs (bitCs n.toNat w) else s.turn).spend 1).raise f)
      else .next (s.turn.raise f) := by
  have hwrite : s.turn.translate .cpu .write s.turn.as (some s.turn.ps) (s.turn.daLong addr rx) = .error f := by
    rw [State.turn_translate, State.turn_as, State.turn_ps, State.turn_daLong, hf]
  rw [execTsb, State.readThen_ok hr]
  dsimp only
  rw [hwrite, testBitCs_eq_bitCs]

theorem State.after_cfg (t : State) (g : Reg → Word) (cs : BitVec 4) (m ic : Word) :
    (t.after g cs m ic).cfg = t.cfg := by
  unfold State.after
  rfl

/-- CS written and nothing else. -/
theorem State.setCs_eq_after (t : State) (cs : BitVec 4) : t.setCs cs = t.after t.reg cs 0 t.ic := by
  have h := t.finishCs_eq_after cs 0
  have hadvance : t.finishCs cs 0 = t.setCs cs := by
    rw [State.finishCs, State.advance, add_zero]
    rfl
  rwa [hadvance, add_zero] at h

theorem State.eq_after_self (t : State) : t = t.after t.reg t.cs 0 t.ic := t.setIc_eq_after t.ic

/-- TSB refused by a protection check: CS as it was, or by the bit tested. -/
theorem execTsb_protected (hr : s.read (s.daLong addr rx) = .ok w)
    (hf : s.translate .cpu .write s.as (some s.ps) (s.daLong addr rx) = .error f) (hbit : f.bit = .cpuProtect) :
    ∃ c, (c = s.cs ∨ c = bitCs n.toNat w) ∧
      execTsb n rx addr s = .next ((((s.turns 1).after s.reg c 0 s.ic).spend 1).raise f) := by
  have hturn : (s.turns 1).reg = s.reg ∧ (s.turns 1).ic = s.ic ∧ (s.turns 1).cs = s.cs :=
    ⟨State.turns_reg 1 s, State.turns_ic 1 s, State.turns_cs 1 s⟩
  obtain ⟨hreg, hic, hcs⟩ := hturn
  rw [execTsb_refused hr hf, if_pos hbit]
  by_cases hset : s.turn.freeBit 0 = true
  · have hafter := (s.turns 1).setCs_eq_after (bitCs n.toNat w)
    rw [hreg, hic] at hafter
    exact ⟨_, .inr rfl, by rw [if_pos hset, ← hafter]; rfl⟩
  · have hafter := (s.turns 1).eq_after_self
    rw [hreg, hic, hcs] at hafter
    exact ⟨_, .inl rfl, by rw [if_neg hset, ← hafter]; rfl⟩

end

end Sys2Proof.Machine

/-! ### The statement -/

namespace Sys2Proof.Certificates

open Sys2Proof.Machine

/-- Settles O44: the reference that faults is the next thing the rule does (`ReadsAt.fault`, `StoresAt.fault`). -/
theorem operandFaultsStop : Obligations.OperandFaultsStop := by
  intro s ra br rx n k dspl addr p w w' f long ends faults refuses refused doubles triples baseDoubles indexedDoubles
  have reads {refs : Nat} {a : Word} {i : Instr} (hf : faults refs a) (h : ReadsAt (s.turns refs) a (exec i s)) :
      ends (refs + 1) i := h.fault hf
  have stores {refs : Nat} {a : Word} {i : Instr} (hf : refuses a) (h : StoresAt (s.turns refs) a (exec i s)) :
      refused (refs + 1) i := h.fault hf.1 hf.2
  have hurs : ReadsAt s (s.reg ra) (execUrs ra s) := readsAt_word
  have hst : StoresAt s long (execSt ra rx addr s) := ⟨_, _, rfl⟩
  have hstc : StoresAt s long (execStc n rx addr s) := ⟨_, _, rfl⟩
  have hjci (h : jumpTaken n s.cs = true) : ReadsAt s long (execJci n rx addr s) := execJci_reads h
  have hlst (hps : s.ps = 0#4) : ReadsThree s long (execLst rx addr s) := execLst_reads hps
  have hlsti (hps : s.ps = 0#4) : ReadsAt s long (execLsti rx addr s) := execLsti_reads hps
  have hstb : StoresAt s (s.daBase br dspl) (execStb br dspl s) := ⟨_, _, rfl⟩
  have hstbx : StoresAt s (s.daIndexed br rx) (execStbx br rx s) := ⟨_, _, rfl⟩
  refine ⟨fun hf => ?long, fun hf => ?urs, fun hne hf => ?mov, fun hf => ?base,
    fun hf => ?indexed, fun h0 hf => ?longSecond, fun h0 hf i hi => ?baseSecond, fun h0 hf i hi => ?indexedSecond,
    fun h0 h1 hf => ?longThird, fun h0 hf => ?through, fun h0 h1 hf => ?throughSecond,
      fun h0 h1 h2 hf hps => ?throughThird,
    fun hf => ?store, fun hne hr hf => ?movStore, fun hf => ?stb,
    fun hf => ?stbx, fun h0 hf => ?storeThrough⟩
  case long =>
    refine ⟨fun i hi => ?_, fun hps i hi => ?_, fun hjump => reads hf (hjci ((s.jumpTaken_iff n).2 hjump))⟩
    · obtain hi | hi := List.mem_append.1 hi
      · obtain hi | hi := List.mem_append.1 hi
        · exact reads hf (longWords_reads s ra rx n k addr i hi)
        · exact reads hf (longDoubles_reads s ra rx addr i hi).first
      · exact reads hf (longTriples_reads s ra rx addr i hi).first
    · obtain rfl | hi := List.mem_cons.1 hi
      · exact reads hf (hlst hps).first
      · obtain rfl := List.mem_singleton.1 hi
        exact reads hf (hlsti hps)
  case urs => exact reads hf hurs
  case mov => exact reads hf (execMov_reads hne)
  case movStore => exact stores hf (execMov_stores hne hr)
  case stb => exact stores hf hstb
  case stbx => exact stores hf hstbx
  case base =>
    intro i hi
    obtain hi | hi := List.mem_append.1 hi
    · exact reads hf (baseWords_reads s br dspl i hi)
    · exact reads hf (baseDoubles_reads s br dspl i hi).first
  case indexed =>
    intro i hi
    obtain hi | hi := List.mem_append.1 hi
    · exact reads hf (indexedWords_reads s br rx i hi)
    · exact reads hf (indexedDoubles_reads s br rx i hi).first
  case longSecond =>
    refine ⟨fun i hi => ?_, fun hps => reads hf ((hlst hps).second w h0)⟩
    obtain hi | hi := List.mem_append.1 hi
    · exact reads hf ((longDoubles_reads s ra rx addr i hi).second w h0)
    · exact reads hf ((longTriples_reads s ra rx addr i hi).second w h0)
  case baseSecond => exact reads hf ((baseDoubles_reads s br dspl i hi).second w h0)
  case indexedSecond => exact reads hf ((indexedDoubles_reads s br rx i hi).second w h0)
  case longThird =>
    exact ⟨fun i hi => reads hf ((longTriples_reads s ra rx addr i hi).third w w' h0 h1),
      fun hps => reads hf ((hlst hps).third w w' h0 h1)⟩
  case through =>
    exact ⟨fun i hi => reads hf (pointedWords_reads s ra rx n addr i hi p h0),
      fun hps => reads hf (execLsti_reads_through hps h0).first⟩
  case throughSecond =>
    exact ⟨reads hf ((execDli_reads_through h0).second w h1),
      fun hps => reads hf ((execLsti_reads_through hps h0).second w h1)⟩
  case throughThird => exact reads hf ((execLsti_reads_through hps h0).third w w' h1 h2)
  case store =>
    refine ⟨stores hf hst, stores hf hstc, fun hr => ?_⟩
    constructor
    · intro i hi
      exact stores hf (changedWords_stores s ra rx n k addr hr i hi)
    · intro fails
      refine ⟨fun hbit => ?_, fun hbit => ?_⟩
      · obtain ⟨c, hc, hexec⟩ := execTsb_protected (n := n) hr hf.2 hbit
        have hcfg : (((s.turns 1).after s.reg c 0 s.ic).spend 1).cfg = s.cfg := by
          rw [State.spend_cfg, State.after_cfg, State.turns_cfg]
        rw [State.raise_eq_afterFault, hcfg] at hexec
        exact ⟨c, hc, (((s.turns 1).after s.reg c 0 s.ic).spend 1).free 0, hexec⟩
      · have hexec : exec (.tsb n rx addr) s = .next ((s.turns 1).raise f) :=
          (execTsb_refused hr hf.2).trans (if_neg hbit)
        exact ⟨_, hexec.trans (congrArg Host.Outcome.next (s.raise_turns_eq_afterFault 1 f))⟩
  case storeThrough =>
    have hsti : StoresAt (s.turns 1) p (execSti ra rx addr s) := execSti_stores h0
    have hstci : StoresAt (s.turns 1) p (execStci n rx addr s) := execStci_stores h0
    exact ⟨stores hf hsti, stores hf hstci,
      fun h1 i hi => stores hf (pointedChanges_stores s ra rx n addr h0 h1 i hi)⟩

end Sys2Proof.Certificates
end
